-- ==== Sys2Proof/Word.lean ====
section
/-! DEFINITION. Words, streams and the small closed sets of names the syntax needs. -/

namespace Sys2Proof

/-- A byte of memory. -/
abbrev Byte := BitVec 8

/-- A 64-bit scalar register value (R56). -/
abbrev Word := BitVec 64

/-- A scalar register number. -/
abbrev Reg := BitVec 5

/-- The four streams of a core (R13), in the order C, T, A, H of R74. -/
inductive StreamId where
  | c | t | a | h
  deriving DecidableEq, Repr

/-- The number R74 gives a stream: 0 C, 1 T, 2 A, 3 H. -/
def StreamId.num : StreamId → Nat
  | .c => 0
  | .t => 1
  | .a => 2
  | .h => 3

/-- The stream of a number of R74, read modulo 4. -/
def StreamId.ofNum (n : Nat) : StreamId :=
  match n % 4 with
  | 0 => .c
  | 1 => .t
  | 2 => .a
  | _ => .h

/-- The PCIe atomics a host may issue (R163). -/
inductive HostAtomic where
  | fetchAdd | swap | cas
  deriving DecidableEq, Repr

/-- The commands that a session may carry: the launch commands of R340 (R401), and PREEMPT and RESTORE, which R371 refuses
on a sealed partition outside a session alone. -/
inductive HostCommand where
  | build
  | patch (word : Nat) (value : Word)
  | arm
  | query
  | free
  | preempt
  | restore
  deriving DecidableEq, Repr

/-- An element on the fabric (R294): its virtual address and its bytes; an added element carries its FP32 value, and an E2M1
element its code with the half of the byte it goes to, the high one or not. -/
structure RemoteElem where
  addr : Nat
  bytes : List Byte
  half : Option Bool
  deriving DecidableEq, Repr

/-- A chunk on the fabric (R294, R416): where it lands, what it carries and how it is applied. -/
structure RemoteChunk where
  /-- device phaser of the destination (R143) -/
  phaser : Nat
  /-- its elements, in element order -/
  elems : List RemoteElem
  /-- added by HSTA, in FP32 or BF16, rather than stored (R290) -/
  add : Bool
  /-- memory holds BF16 rather than FP32 elements, where the chunk adds -/
  bf16 : Bool
  deriving DecidableEq, Repr

/-- What the collar ROM finds in the board's flash (R400). -/
structure FlashImage where
  /-- flash could be read -/
  readable : Bool
  /-- the SLH-DSA signature verifies -/
  signed : Bool
  /-- security version of the image -/
  version : Nat
  /-- name of the image's content, from which its digest comes -/
  content : Nat
  deriving DecidableEq, Repr

end Sys2Proof
end

