-- ==== Sys2Proof/Config.lean ====
section
/-! DEFINITION. What an implementation fixes, and the values the spec leaves open.

A free value is an opaque constant: nothing can be proved of what it is. -/

namespace Sys2Proof.Config

/-- The number of cores (R10). -/
def cores : Nat := 2048

/-- The size of HBM in bytes (R388). -/
def hbmSize : Nat := 274877906944

/-- Which of the issued steppings this device is (R3). -/
opaque steppingIndex : Fin 3

/-- The stepping code of R3: B1, C0 or C1, which each device has for itself (R341). -/
def stepping : BitVec 8 :=
  match steppingIndex with
  | 0 => 0xB1
  | 1 => 0xC0
  | 2 => 0xC1

/-- Clock cycles of a core, beyond one, between two readings of %cycle (log 5). -/
opaque freeCycles : Nat → BitVec 32

/-- A byte of HBM read under a key other than the one it was written under (R399, log 13). -/
opaque garbled : Nat → Nat → BitVec 8

/-- Clusters that a transfer crosses on the on-die network, which the spec does not count (R409, log 12). -/
opaque clustersCrossed : Nat → Nat

/-- Femtojoules of refresh, idle power, leakage and the lamp room's own work between two samples of the lamp room
(R409, log 12). -/
opaque systemEnergy : Nat → Nat

/-- Read noise of one ADC sample of a real panel, in code steps: one value of a distribution whose rms R253 bounds
(log 7). -/
opaque adcNoise : Nat → Rat

/-- Offset of one ADC code of a real panel, in code steps, before the bound of R253 (log 7). -/
opaque adcOffset : Nat → Rat

/-- Relative gain error of one ADC code of a real panel, before the bound of R253 (log 7). -/
opaque adcGain : Nat → Rat

/-- Error of one DAC code of a real panel, in input code steps, before the bound of R253 (log 7). -/
opaque dacError : Nat → Nat → Rat

/-- α of a cell of a real panel, before the bounds of R253: panel and cell (log 7). -/
opaque cellStep : Nat → Nat → Rat

/-- Symmetry point of a fast cell of a real panel, before the bound of R253 (log 7). -/
opaque cellSymmetry : Nat → Nat → Rat

/-- Up and down saturation bounds of a cell of a real panel, before the bounds of R253 (log 7). -/
opaque cellHigh : Nat → Nat → Rat
opaque cellLow : Nat → Nat → Rat

/-- Variation of one pulse about its cell's mean step, as a factor (R253, log 7). -/
opaque pulseFactor : Nat → Rat

/-- How far a pulse moves a cell of its row or column that it does not reach, before the bound of R253 (log 7). -/
opaque disturb : Nat → Nat → Rat

/-- Hours that have passed at a panel since its last operation, and years without power (R253, log 7). -/
opaque hours : Nat → Rat
opaque years : Nat → Rat

/-- Drift of a fast cell toward its symmetry point and of a slow cell, as fractions, before the bounds of R253, and
of a slow cell without power, in weight units (log 7). -/
opaque fastDrift : Nat → Nat → Rat
opaque slowDrift : Nat → Nat → Rat
opaque idleDrift : Nat → Nat → Rat

/-- Weight at which a write-verify loop of a real panel leaves a cell, for its target (R253, R263, log 7). -/
opaque realProgram : Nat → Rat → Rat

/-- Pulses that the bursts of a write-verify loop apply (R254, R263, log 41). -/
opaque burstPulses : Nat → Nat

/-- Pulse slots that a row or column of write-verify loops takes, which the spec does not count (R254, R409, log 12). -/
opaque burstSlots : Nat → Nat

/-- Column or row gain found by calibration of a real panel (R420, log 7). -/
opaque realGain : Nat → BitVec 16

/-- Fast weight that power-up leaves (R245, log 6). -/
opaque powerUpWeight : Nat → Rat

/-- Whether a cluster fails its self-test at bring-up or never completes its rail trim (R422, log 25). -/
opaque clusterFails : Nat → Nat → Bool

/-- Whether the calibration of a spare of a real panel fails (R421, log 23). -/
opaque spareFails : Nat → Bool

/-- Milliseconds that have passed of a sprint or a cool-down (R411, log 5). -/
opaque msPassed : Nat → Nat

/-- Who makes a host access: a PCIe requester, or none where it is the firmware of the I/O die (R398, log 49). -/
opaque requester : Nat → Option (BitVec 16)

/-- SHAKE256 digests of named contents (R400, log 13). -/
opaque shake256 : Nat → BitVec 512

/-- SHA3-384 digests of named contents (R401, log 13). -/
opaque sha3 : Nat → BitVec 384

/-- Signatures and certificates, which the security engine makes (R400, R401, log 13). -/
opaque signature : Nat → BitVec 512

/-- Bytes of the opaque accumulator scan image (R375, log 15). -/
opaque scanImage : BitVec 64 → Nat → BitVec 8

/-- Bytes of image sections whose packing the spec leaves open (R375, log 15). -/
opaque imagePacking : Nat → BitVec 8

/-- ap.orng of the assay that remaps a panel, less 1, which the spec does not state (R421, log 23). -/
opaque remapRange : Nat

/-- What another device answers to a chunk (R294, R413, R416, log 21): 0 it takes it, 1 it is unreachable, its DEVNUM unset or the
port lost before the chunk is acknowledged, 2 it refuses the phaser or the contributor, 3 the contributor's turn has not
come. -/
opaque remoteAnswer : Nat → Fin 4

/-- OV and NV of additions that another device makes (R290, log 21). -/
opaque remoteStatus : Nat → Bool × Bool

/-- The security version fused into the device (R400). -/
opaque fusedVersion : Nat

end Sys2Proof.Config
end

