-- ==== Sys2Proof/Syntax.lean ====
section
/-! DEFINITION. The instructions and events of the Yalax: one constructor per row of spec/opcode_table.json.

A row with an encoding carries the fields of its ruler (R82 to R102), each a bit vector of the field's
width, named by the letter the table gives it. A row without one is a step the device takes by itself or
that the outside world causes (95_what_each_step_holds.md); its operands say where it happens. -/

namespace Sys2Proof

/-- Every step of the machine (spec/opcode_table.json, 314 rows). -/
inductive Instr where
  /-- MOV_16 (R82). 16-bit form of OR sD, sA, s0: copies sA into sD. -/
  | mov16 (d : BitVec 5) (a : BitVec 5)
  /-- ADD_16 (R82). 16-bit sD = sD + sA. -/
  | add16 (d : BitVec 5) (a : BitVec 5)
  /-- SUB_16 (R82). 16-bit sD = sD - sA. -/
  | sub16 (d : BitVec 5) (a : BitVec 5)
  /-- AND_16 (R82). 16-bit sD = sD AND sA. -/
  | and16 (d : BitVec 5) (a : BitVec 5)
  /-- OR_16 (R82). 16-bit sD = sD OR sA. -/
  | or16 (d : BitVec 5) (a : BitVec 5)
  /-- XOR_16 (R82). 16-bit sD = sD XOR sA. -/
  | xor16 (d : BitVec 5) (a : BitVec 5)
  /-- ADDI_16 (R82). 16-bit sD = sD + n, with n signed from -16 to 15. -/
  | addi16 (d : BitVec 5) (i : BitVec 5)
  /-- LDI_16 (R171). 16-bit load of n sign-extended to 64 bits. -/
  | ldi16 (d : BitVec 5) (i : BitVec 5)
  /-- SHLI_16 (R82). 16-bit left shift of sD by n. -/
  | shli16 (d : BitVec 5) (i : BitVec 5)
  /-- SHRI_16 (R82). 16-bit logical right shift of sD by n. -/
  | shri16 (d : BitVec 5) (i : BitVec 5)
  /-- CADD_16 (R82). 16-bit lane-wise coordinate add. -/
  | cadd16 (d : BitVec 5) (a : BitVec 5)
  /-- EPOST_16 (R191). 16-bit form of EPOST: sets event eN. -/
  | epost16 (n : BitVec 5)
  /-- EWAIT_16 (R191). 16-bit form of EWAIT: waits for event eN and clears it. -/
  | ewait16 (n : BitVec 5)
  /-- TEMPTY_16 (R237). 16-bit form of TEMPTY for the T stream: sets a tile empty. -/
  | tempty16 (t : BitVec 5)
  /-- ADD (R167). sD = sA + sB modulo 2^64. -/
  | add (d : BitVec 5) (a : BitVec 5) (b : BitVec 5)
  /-- SUB (R167). sD = sA - sB modulo 2^64. -/
  | sub (d : BitVec 5) (a : BitVec 5) (b : BitVec 5)
  /-- MUL (R167). Low 64 bits of sA x sB. -/
  | mul (d : BitVec 5) (a : BitVec 5) (b : BitVec 5)
  /-- MULHS (R167). High 64 bits of the signed 128-bit product. -/
  | mulhs (d : BitVec 5) (a : BitVec 5) (b : BitVec 5)
  /-- MULHU (R167). High 64 bits of the unsigned 128-bit product. -/
  | mulhu (d : BitVec 5) (a : BitVec 5) (b : BitVec 5)
  /-- DIV (R168). Signed quotient toward zero, with no trap on zero or overflow. -/
  | div (d : BitVec 5) (a : BitVec 5) (b : BitVec 5)
  /-- DIVU (R168). Unsigned quotient, with no trap on zero. -/
  | divu (d : BitVec 5) (a : BitVec 5) (b : BitVec 5)
  /-- REM (R168). Signed remainder with the sign of sA. -/
  | rem (d : BitVec 5) (a : BitVec 5) (b : BitVec 5)
  /-- REMU (R168). Unsigned remainder. -/
  | remu (d : BitVec 5) (a : BitVec 5) (b : BitVec 5)
  /-- AND (R167). Bitwise AND. -/
  | and (d : BitVec 5) (a : BitVec 5) (b : BitVec 5)
  /-- OR (R167). Bitwise OR. -/
  | or (d : BitVec 5) (a : BitVec 5) (b : BitVec 5)
  /-- XOR (R167). Bitwise XOR. -/
  | xor (d : BitVec 5) (a : BitVec 5) (b : BitVec 5)
  /-- ANDN (R167). sA AND NOT sB. -/
  | andn (d : BitVec 5) (a : BitVec 5) (b : BitVec 5)
  /-- SHL (R167). Left shift by sB[5:0]. -/
  | shl (d : BitVec 5) (a : BitVec 5) (b : BitVec 5)
  /-- SHR (R167). Logical right shift by sB[5:0]. -/
  | shr (d : BitVec 5) (a : BitVec 5) (b : BitVec 5)
  /-- SAR (R167). Arithmetic right shift by sB[5:0]. -/
  | sar (d : BitVec 5) (a : BitVec 5) (b : BitVec 5)
  /-- MIN (R167). Signed minimum. -/
  | min (d : BitVec 5) (a : BitVec 5) (b : BitVec 5)
  /-- MAX (R167). Signed maximum. -/
  | max (d : BitVec 5) (a : BitVec 5) (b : BitVec 5)
  /-- MINU (R167). Unsigned minimum. -/
  | minu (d : BitVec 5) (a : BitVec 5) (b : BitVec 5)
  /-- MAXU (R167). Unsigned maximum. -/
  | maxu (d : BitVec 5) (a : BitVec 5) (b : BitVec 5)
  /-- SLT (R167). 1 if sA is below sB, signed, else 0. -/
  | slt (d : BitVec 5) (a : BitVec 5) (b : BitVec 5)
  /-- SLTU (R167). 1 if sA is below sB, unsigned, else 0. -/
  | sltu (d : BitVec 5) (a : BitVec 5) (b : BitVec 5)
  /-- SEQ (R167). 1 if sA equals sB, else 0. -/
  | seq (d : BitVec 5) (a : BitVec 5) (b : BitVec 5)
  /-- SNE (R167). 1 if sA differs from sB, else 0. -/
  | sne (d : BitVec 5) (a : BitVec 5) (b : BitVec 5)
  /-- SEL (R167). sD = sA if the old sD is non-zero, else sB. -/
  | sel (d : BitVec 5) (a : BitVec 5) (b : BitVec 5)
  /-- CLZ (R167). Counts the leading zero bits of sA. -/
  | clz (d : BitVec 5) (a : BitVec 5)
  /-- POPC (R167). Counts the one bits of sA. -/
  | popc (d : BitVec 5) (a : BitVec 5)
  /-- CTZ (R167). Counts the trailing zero bits of sA. -/
  | ctz (d : BitVec 5) (a : BitVec 5)
  /-- CADD (R167). Lane-wise 16-bit add with no carry between lanes. -/
  | cadd (d : BitVec 5) (a : BitVec 5) (b : BitVec 5)
  /-- ADDI (R169). sD = sA + signed imm12. -/
  | addi (d : BitVec 5) (a : BitVec 5) (i : BitVec 12)
  /-- ANDI (R169). sD = sA AND zero-extended imm12. -/
  | andi (d : BitVec 5) (a : BitVec 5) (i : BitVec 12)
  /-- ORI (R169). sD = sA OR zero-extended imm12. -/
  | ori (d : BitVec 5) (a : BitVec 5) (i : BitVec 12)
  /-- XORI (R169). sD = sA XOR zero-extended imm12. -/
  | xori (d : BitVec 5) (a : BitVec 5) (i : BitVec 12)
  /-- SHLI (R169). Left shift by an immediate from 0 to 63. -/
  | shli (d : BitVec 5) (a : BitVec 5) (n : BitVec 6)
  /-- SHRI (R169). Logical right shift by an immediate. -/
  | shri (d : BitVec 5) (a : BitVec 5) (n : BitVec 6)
  /-- SARI (R169). Arithmetic right shift by an immediate. -/
  | sari (d : BitVec 5) (a : BitVec 5) (n : BitVec 6)
  /-- SLTI (R169). Signed compare with a signed immediate. -/
  | slti (d : BitVec 5) (a : BitVec 5) (i : BitVec 12)
  /-- SLTUI (R169). Unsigned compare with a zero-extended immediate. -/
  | sltui (d : BitVec 5) (a : BitVec 5) (i : BitVec 12)
  /-- SEQI (R169). Equality test against a signed immediate. -/
  | seqi (d : BitVec 5) (a : BitVec 5) (i : BitVec 12)
  /-- MULI (R169). Low 64 bits of sA times a signed immediate. -/
  | muli (d : BitVec 5) (a : BitVec 5) (i : BitVec 12)
  /-- LDI (R170). sD = imm16 shifted to halfword position h. -/
  | ldi (d : BitVec 5) (h : BitVec 2) (i : BitVec 16)
  /-- INSI (R170). Inserts imm16 into halfword h of sD and keeps the other bits. -/
  | insi (d : BitVec 5) (h : BitVec 2) (i : BitVec 16)
  /-- LDIN (R170). sD = NOT (imm16 shifted to halfword position h). -/
  | ldin (d : BitVec 5) (h : BitVec 2) (i : BitVec 16)
  /-- BEQ (R173). Branches to a header if sA equals sB. -/
  | beq (a : BitVec 5) (b : BitVec 5) (o : BitVec 12)
  /-- BNE (R173). Branches if sA differs from sB. -/
  | bne (a : BitVec 5) (b : BitVec 5) (o : BitVec 12)
  /-- BLT (R173). Branches if sA is below sB, signed. -/
  | blt (a : BitVec 5) (b : BitVec 5) (o : BitVec 12)
  /-- BGE (R173). Branches if sA is at least sB, signed. -/
  | bge (a : BitVec 5) (b : BitVec 5) (o : BitVec 12)
  /-- BLTU (R173). Branches if sA is below sB, unsigned. -/
  | bltu (a : BitVec 5) (b : BitVec 5) (o : BitVec 12)
  /-- BGEU (R173). Branches if sA is at least sB, unsigned. -/
  | bgeu (a : BitVec 5) (b : BitVec 5) (o : BitVec 12)
  /-- JMP (R174). Unconditional jump to a block header. -/
  | jmp (o : BitVec 12)
  /-- CALL (R174). Pushes the next header and jumps to the target header. -/
  | call (o : BitVec 12)
  /-- JMPR (R174). Jumps to the block address held in sA. -/
  | jmpr (a : BitVec 5)
  /-- CALLR (R174). Pushes the next header and jumps to the address held in sA. -/
  | callr (a : BitVec 5)
  /-- LDB (R177). Loads a byte, zero-extended, through a layout. -/
  | ldb (d : BitVec 5) (c : BitVec 5) (l : BitVec 8) (r : BitVec 2)
  /-- LDBS (R177). Loads a byte, sign-extended. -/
  | ldbs (d : BitVec 5) (c : BitVec 5) (l : BitVec 8) (r : BitVec 2)
  /-- LDH (R177). Loads a halfword, zero-extended. -/
  | ldh (d : BitVec 5) (c : BitVec 5) (l : BitVec 8) (r : BitVec 2)
  /-- LDHS (R177). Loads a halfword, sign-extended. -/
  | ldhs (d : BitVec 5) (c : BitVec 5) (l : BitVec 8) (r : BitVec 2)
  /-- LDW (R177). Loads a word, zero-extended. -/
  | ldw (d : BitVec 5) (c : BitVec 5) (l : BitVec 8) (r : BitVec 2)
  /-- LDWS (R177). Loads a word, sign-extended. -/
  | ldws (d : BitVec 5) (c : BitVec 5) (l : BitVec 8) (r : BitVec 2)
  /-- LDD (R177). Loads a doubleword. -/
  | ldd (d : BitVec 5) (c : BitVec 5) (l : BitVec 8) (r : BitVec 2)
  /-- LDF (R181). Waits for a word to be full, then loads it and leaves it full. -/
  | ldf (d : BitVec 5) (c : BitVec 5) (l : BitVec 8) (r : BitVec 2)
  /-- STB (R177). Stores the low byte of sD. -/
  | stb (d : BitVec 5) (c : BitVec 5) (l : BitVec 8) (r : BitVec 2)
  /-- STH (R177). Stores the low halfword of sD. -/
  | sth (d : BitVec 5) (c : BitVec 5) (l : BitVec 8) (r : BitVec 2)
  /-- STW (R177). Stores the low word of sD. -/
  | stw (d : BitVec 5) (c : BitVec 5) (l : BitVec 8) (r : BitVec 2)
  /-- STD (R177). Stores the doubleword sD. -/
  | std (d : BitVec 5) (c : BitVec 5) (l : BitVec 8) (r : BitVec 2)
  /-- STE (R181). Waits for a word to be empty, then stores it and sets it full. -/
  | ste (d : BitVec 5) (c : BitVec 5) (l : BitVec 8) (r : BitVec 2)
  /-- LDFE (R181). Waits for a word to be full, then loads it and sets it empty. -/
  | ldfe (d : BitVec 5) (c : BitVec 5) (l : BitVec 8) (r : BitVec 2)
  /-- STF (R181). Stores a word and sets it full without waiting. -/
  | stf (d : BitVec 5) (c : BitVec 5) (l : BitVec 8) (r : BitVec 2)
  /-- SETE (R181). Sets a word's full/empty bit empty. -/
  | sete (c : BitVec 5) (l : BitVec 8) (r : BitVec 2)
  /-- ATADD (R184). 64-bit atomic add at the word's home. -/
  | atadd (d : BitVec 5) (c : BitVec 5) (l : BitVec 8) (r : BitVec 2) (x : BitVec 1)
  /-- ATADDW (R184). 32-bit atomic add. -/
  | ataddw (d : BitVec 5) (c : BitVec 5) (l : BitVec 8) (r : BitVec 2) (x : BitVec 1)
  /-- ATFADD (R187). FP32 atomic add rounded by RNE. -/
  | atfadd (d : BitVec 5) (c : BitVec 5) (l : BitVec 8) (r : BitVec 2) (x : BitVec 1)
  /-- ATMIN (R184). Atomic signed minimum. -/
  | atmin (d : BitVec 5) (c : BitVec 5) (l : BitVec 8) (r : BitVec 2) (x : BitVec 1)
  /-- ATMAX (R184). Atomic signed maximum. -/
  | atmax (d : BitVec 5) (c : BitVec 5) (l : BitVec 8) (r : BitVec 2) (x : BitVec 1)
  /-- ATMINU (R184). Atomic unsigned minimum. -/
  | atminu (d : BitVec 5) (c : BitVec 5) (l : BitVec 8) (r : BitVec 2) (x : BitVec 1)
  /-- ATMAXU (R184). Atomic unsigned maximum. -/
  | atmaxu (d : BitVec 5) (c : BitVec 5) (l : BitVec 8) (r : BitVec 2) (x : BitVec 1)
  /-- ATAND (R184). Atomic AND. -/
  | atand (d : BitVec 5) (c : BitVec 5) (l : BitVec 8) (r : BitVec 2) (x : BitVec 1)
  /-- ATOR (R184). Atomic OR. -/
  | ator (d : BitVec 5) (c : BitVec 5) (l : BitVec 8) (r : BitVec 2) (x : BitVec 1)
  /-- ATXOR (R184). Atomic XOR. -/
  | atxor (d : BitVec 5) (c : BitVec 5) (l : BitVec 8) (r : BitVec 2) (x : BitVec 1)
  /-- ATXCHG (R184). Atomic exchange. -/
  | atxchg (d : BitVec 5) (c : BitVec 5) (l : BitVec 8) (r : BitVec 2) (x : BitVec 1)
  /-- ATCAS (R186). Atomic compare-and-swap of 64 bits; returns the old value. -/
  | atcas (d : BitVec 5) (c : BitVec 5) (l : BitVec 8) (r : BitVec 2)
  /-- ATFMIN (R187). Atomic FP32 minimum. -/
  | atfmin (d : BitVec 5) (c : BitVec 5) (l : BitVec 8) (r : BitVec 2) (x : BitVec 1)
  /-- ATFMAX (R187). Atomic FP32 maximum. -/
  | atfmax (d : BitVec 5) (c : BitVec 5) (l : BitVec 8) (r : BitVec 2) (x : BitVec 1)
  /-- EPOST (R191). Sets an event at once. -/
  | epost (n : BitVec 5)
  /-- EWAIT (R191). Waits for an event and clears it. -/
  | ewait (n : BitVec 5)
  /-- EWAITK (R191). Waits for an event and leaves it set. -/
  | ewaitk (n : BitVec 5)
  /-- WAITC (R192). Waits until the stream's outstanding-operation counters fall to the given bounds. -/
  | waitc (l : BitVec 2) (s : BitVec 2) (c : BitVec 3) (e : BitVec 4)
  /-- JOIN (R193). Meets the named streams of the core and waits for their accesses to complete. -/
  | join (s : BitVec 2) (m : BitVec 4)
  /-- PHREG (R195). Registers the stream on a phaser with a role. -/
  | phreg (a : BitVec 5) (r : BitVec 2)
  /-- PHSIG (R196). Signals the stream's current phase on a phaser. -/
  | phsig (a : BitVec 5)
  /-- PHWAIT (R196). Waits until the named phase has completed and acquires. -/
  | phwait (d : BitVec 5) (a : BitVec 5)
  /-- PHNEXT (R196). Signals if a signaller, waits for the phase and advances the cursor. -/
  | phnext (d : BitVec 5) (a : BitVec 5)
  /-- PHDROP (R195). Removes the stream from a phaser. -/
  | phdrop (a : BitVec 5)
  /-- PHROLE (R195). Changes the stream's role when the current phase completes. -/
  | phrole (a : BitVec 5) (r : BitVec 2)
  /-- PHEXP (R198). Posts the expected byte count of a byte-mode phaser's phase. -/
  | phexp (d : BitVec 5) (a : BitVec 5)
  /-- QPUT (R201). Reserves a ticket and publishes an 8-word record into a task queue. -/
  | qput (d : BitVec 5) (a : BitVec 5)
  /-- QRES (R201). Reserves a queue ticket and holds it. -/
  | qres (d : BitVec 5) (a : BitVec 5)
  /-- QPUB (R201). Publishes a record at a held ticket. -/
  | qpub (d : BitVec 5) (a : BitVec 5)
  /-- QTAKE (R202). Waits for and takes the record at the queue head, skipping VOID records. -/
  | qtake (d : BitVec 5) (a : BitVec 5)
  /-- QTRY (R202). Takes the head record or returns zeros where QTAKE would wait. -/
  | qtry (d : BitVec 5) (a : BitVec 5)
  /-- RNEXT (R205). Requests the next chunk of a RANGE launch for the crew. -/
  | rnext (d : BitVec 5)
  /-- LPATCH (R206). Writes a patchable word of a launch record. -/
  | lpatch (d : BitVec 5) (a : BitVec 5) (f : BitVec 11)
  /-- LARM (R206). Arms a BUILT or DONE launch record. -/
  | larm (a : BitVec 5)
  /-- LQUERY (R206). Returns the state code of a launch record. -/
  | lquery (d : BitVec 5) (a : BitVec 5)
  /-- LAMPST (R209). Reads the shaft's lamp state from the lamp room. -/
  | lampst (d : BitVec 5)
  /-- WRD (R210). Reads a window register. -/
  | wrd (d : BitVec 5) (w : BitVec 3)
  /-- WWR (R210). Writes a window register. -/
  | wwr (a : BitVec 5) (w : BitVec 3)
  /-- XSW (R211). Exchanges a tile with the same tile of the twin after pairing. -/
  | xsw (t : BitVec 5)
  /-- CARVE (R212). Requests a new tile count at the completion of the current phase of a phaser. -/
  | carve (a : BitVec 5) (n : BitVec 6)
  /-- RLABEL (R213). Records the T stream's resume block for the recompute policy. -/
  | rlabel (o : BitVec 11)
  /-- PCOORD (R207). Reads a coordinate of the running point. -/
  | pcoord (d : BitVec 5) (k : BitVec 2)
  /-- PSELF (R207). Reads the core number, rank, crew kind, level and cluster. -/
  | pself (d : BitVec 5)
  /-- SRD (R214). Reads a state register. -/
  | srd (d : BitVec 5) (n : BitVec 12)
  /-- SWR (R214). Writes a state register. -/
  | swr (a : BitVec 5) (n : BitVec 12)
  /-- TRAP (R215). Raises the user trap, cause 0x17. -/
  | trap (n : BitVec 12)
  /-- PACE (R217). Sets the stream's minimum cycles between heavy instructions. -/
  | pace (n : BitVec 12)
  /-- BKPT (R215). Raises the break trap, cause 0x16. -/
  | bkpt (n : BitVec 12)
  /-- CHK (R215). Raises cause 0x17 when sA is zero. -/
  | chk (a : BitVec 5) (n : BitVec 12)
  /-- BANK (R218). Switches a cluster bank's mode after draining it. -/
  | bank (m : BitVec 2) (b : BitVec 6)
  /-- TADD (R226). Elementwise tile add. -/
  | tadd (d : BitVec 8) (a : BitVec 8) (b : BitVec 8)
  /-- TSUB (R226). Elementwise tile subtract. -/
  | tsub (d : BitVec 8) (a : BitVec 8) (b : BitVec 8)
  /-- TMUL (R226). Elementwise tile multiply. -/
  | tmul (d : BitVec 8) (a : BitVec 8) (b : BitVec 8)
  /-- TFMA (R226). Fused multiply-add into the destination tile. -/
  | tfma (d : BitVec 8) (a : BitVec 8) (b : BitVec 8)
  /-- TMAX (R226). Elementwise maximum. -/
  | tmax (d : BitVec 8) (a : BitVec 8) (b : BitVec 8)
  /-- TMIN (R226). Elementwise minimum. -/
  | tmin (d : BitVec 8) (a : BitVec 8) (b : BitVec 8)
  /-- TCLT (R226). Elementwise less-than giving 1.0 or 0.0. -/
  | tclt (d : BitVec 8) (a : BitVec 8) (b : BitVec 8)
  /-- TCEQ (R226). Elementwise equality giving 1.0 or 0.0. -/
  | tceq (d : BitVec 8) (a : BitVec 8) (b : BitVec 8)
  /-- TSEL (R226). Selects ta or tb by the destination's old value. -/
  | tsel (d : BitVec 8) (a : BitVec 8) (b : BitVec 8)
  /-- TSRND (R239). Stochastic rounding with random bits from tb. -/
  | tsrnd (d : BitVec 8) (a : BitVec 8) (b : BitVec 8)
  /-- TMOV (R227). Copies or converts a tile elementwise. -/
  | tmov (d : BitVec 8) (a : BitVec 8)
  /-- TNEG (R227). Negates each element. -/
  | tneg (d : BitVec 8) (a : BitVec 8)
  /-- TABS (R227). Absolute value of each element. -/
  | tabs (d : BitVec 8) (a : BitVec 8)
  /-- TEXP2 (R41). Correctly rounded 2^x. -/
  | texp2 (d : BitVec 8) (a : BitVec 8)
  /-- TLOG2 (R41). Correctly rounded log2(x). -/
  | tlog2 (d : BitVec 8) (a : BitVec 8)
  /-- TRCP (R41). Correctly rounded reciprocal. -/
  | trcp (d : BitVec 8) (a : BitVec 8)
  /-- TRSQ (R41). Correctly rounded reciprocal square root. -/
  | trsq (d : BitVec 8) (a : BitVec 8)
  /-- TSQRT (R41). Correctly rounded square root. -/
  | tsqrt (d : BitVec 8) (a : BitVec 8)
  /-- TSIG (R41). Correctly rounded sigmoid. -/
  | tsig (d : BitVec 8) (a : BitVec 8)
  /-- TTANH (R41). Correctly rounded tanh. -/
  | ttanh (d : BitVec 8) (a : BitVec 8)
  /-- TSILU (R41). Correctly rounded SiLU. -/
  | tsilu (d : BitVec 8) (a : BitVec 8)
  /-- TGELU (R41). Correctly rounded tanh-form GELU. -/
  | tgelu (d : BitVec 8) (a : BitVec 8)
  /-- TSCAL (R227). Multiplies each element by the FP32 scalar in sS. -/
  | tscal (d : BitVec 8) (a : BitVec 8) (s : BitVec 5)
  /-- TADDS (R227). Adds the FP32 scalar in sS to each element. -/
  | tadds (d : BitVec 8) (a : BitVec 8) (s : BitVec 5)
  /-- TRSUM (R228). Exact row sums rounded once into column 0. -/
  | trsum (d : BitVec 8) (a : BitVec 8)
  /-- TRMAX (R228). Row maxima into column 0. -/
  | trmax (d : BitVec 8) (a : BitVec 8)
  /-- TCSUM (R228). Exact column sums rounded once into row 0. -/
  | tcsum (d : BitVec 8) (a : BitVec 8)
  /-- TCMAX (R228). Column maxima into row 0. -/
  | tcmax (d : BitVec 8) (a : BitVec 8)
  /-- TROWX (R229). Copies seen row sS of ta to row 0 of td. -/
  | trowx (d : BitVec 8) (a : BitVec 8) (s : BitVec 5)
  /-- TROWI (R229). Copies row 0 of ta to row sS of td. -/
  | trowi (d : BitVec 8) (a : BitVec 8) (s : BitVec 5)
  /-- TFILL (R230). Fills a tile from a scalar. -/
  | tfill (d : BitVec 8) (s : BitVec 5)
  /-- TIOTA (R230). Fills each element with its row-major index. -/
  | tiota (d : BitVec 8)
  /-- TCLAMP (R230). Clamps each element to plus or minus |sS|. -/
  | tclamp (d : BitVec 8) (a : BitVec 8) (s : BitVec 5)
  /-- TMMA (R231). Matrix product of two tiles accumulated into an FP64 accumulator. -/
  | tmma (m : BitVec 1) (a : BitVec 8) (b : BitVec 8)
  /-- TMMAZ (R231). Matrix product whose first block replaces the accumulator. -/
  | tmmaz (m : BitVec 1) (a : BitVec 8) (b : BitVec 8)
  /-- TDRAIN (R232). Rounds the accumulator into a tile. -/
  | tdrain (m : BitVec 1) (d : BitVec 8) (x : BitVec 1) (c : BitVec 1) (r : BitVec 2) (f : BitVec 2)
  /-- TDRAINM (R233). Adds the accumulator's drain-shape region into memory. -/
  | tdrainm (m : BitVec 1) (l : BitVec 8) (c : BitVec 5) (k : BitVec 1) (f : BitVec 1)
  /-- TACLR (R234). Zeroes an accumulator, its status and drain shape. -/
  | taclr (m : BitVec 1)
  /-- TCVT (R235). Converts a tile to a format with a given rounding. -/
  | tcvt (d : BitVec 8) (a : BitVec 8) (r : BitVec 2) (s : BitVec 1) (t : BitVec 3)
  /-- TQNT (R44). Block-quantises rows into E4M3 or E2M1 with computed scale codes. -/
  | tqnt (d : BitVec 8) (a : BitVec 8) (t : BitVec 1)
  /-- TDQNT (R45). Dequantises an E4M3 or E2M1 tile. -/
  | tdqnt (d : BitVec 8) (a : BitVec 8) (r : BitVec 2) (t : BitVec 3)
  /-- TTRL (R236). Computes the 16-byte row trailers of a tile. -/
  | ttrl (d : BitVec 8) (a : BitVec 8)
  /-- TDESC (R59). Sets a tile's shape and format and clears its status. -/
  | tdesc (d : BitVec 8) (a : BitVec 5) (b : BitVec 5) (i : BitVec 3)
  /-- TEMPTY (R64). Sets a tile's full/empty bit empty without waiting. -/
  | tempty (d : BitVec 8)
  /-- TFULL (R64). Sets a tile's full/empty bit full without waiting. -/
  | tfull (d : BitVec 8)
  /-- TDRD (R237). Reads a tile descriptor. -/
  | tdrd (d : BitVec 8) (a : BitVec 5)
  /-- TRAND (R240). Fills a tile from the core generator. -/
  | trand (d : BitVec 8)
  /-- TSEED (R240). Seeds the core generator. -/
  | tseed (a : BitVec 5)
  /-- TSTATS (R241). Merges a tile's status into a tensor-statistics entry. -/
  | tstats (d : BitVec 8) (a : BitVec 5)
  /-- TGET (R238). Reads one element code of a tile. -/
  | tget (d : BitVec 8) (a : BitVec 5) (b : BitVec 5)
  /-- TSET (R238). Writes one element code of a tile. -/
  | tset (d : BitVec 8) (a : BitVec 5) (b : BitVec 5)
  /-- AFWD (R260). Forward panel read of input vectors into output codes per column. -/
  | afwd (p : BitVec 5) (x : BitVec 3) (k : BitVec 1) (y : BitVec 3) (j : BitVec 1) (i : BitVec 1)
  /-- ABWD (R260). Transposed panel read producing codes per row. -/
  | abwd (p : BitVec 5) (x : BitVec 3) (k : BitVec 1) (y : BitVec 3) (j : BitVec 1) (i : BitVec 1)
  /-- AUPD (R261). Applies a rank-one update by coincident stochastic pulses. -/
  | aupd (p : BitVec 5) (x : BitVec 3) (k : BitVec 1) (y : BitVec 3) (j : BitVec 1) (i : BitVec 1)
  /-- AXFR (R262). Transfers fast-array content into the slow array column by column. -/
  | axfr (p : BitVec 5) (i : BitVec 1)
  /-- ACAL (R265). Measures the symmetry points of fast columns and zeroes them. -/
  | acal (p : BitVec 5) (y : BitVec 3) (j : BitVec 1) (i : BitVec 1)
  /-- AASY (R266). Averaged checkpoint read of panel rows. -/
  | aasy (p : BitVec 5) (y : BitVec 3) (j : BitVec 1) (i : BitVec 1)
  /-- APROG (R267). Programs panel rows to targets by write-verify loops. -/
  | aprog (p : BitVec 5) (x : BitVec 3) (k : BitVec 1) (i : BitVec 1)
  /-- ARGRW (R269). Regrows a 2:4 masked panel by swapping pruned and live cells. -/
  | argrw (p : BitVec 5) (i : BitVec 1)
  /-- AMASK (R268). Binds a 2:4 mask plane in core scratch to a panel. -/
  | amask (p : BitVec 5) (l : BitVec 8) (i : BitVec 1)
  /-- ASEED (R270). Seeds the panel's row and column generators from ap.seed. -/
  | aseed (p : BitVec 5) (i : BitVec 1)
  /-- ASTAT (R271). Writes the panel's health into a tile. -/
  | astat (p : BitVec 5) (y : BitVec 5) (j : BitVec 1) (i : BitVec 1)
  /-- AZERO (R264). Drives fast cells of selected columns to their symmetry point. -/
  | azero (p : BitVec 5) (i : BitVec 1)
  /-- ASET_WRITE (R70). Writes an array parameter register from a scalar register. -/
  | asetWrite (p : BitVec 5) (s : BitVec 5)
  /-- ASET_READ (R272). Copies an array parameter register into a scalar register. -/
  | asetRead (p : BitVec 5) (s : BitVec 5)
  /-- HLD (R289). Issues a copy loading a tile from a layout. -/
  | hld (t : BitVec 5) (l : BitVec 8) (c : BitVec 5) (k : BitVec 5)
  /-- HST (R289). Issues a copy storing a tile to a layout. -/
  | hst (t : BitVec 5) (v : BitVec 2) (l : BitVec 8) (c : BitVec 5) (k : BitVec 5)
  /-- HSTA (R290). Issues a copy adding a tile into memory row by row. -/
  | hsta (t : BitVec 5) (v : BitVec 2) (l : BitVec 8) (c : BitVec 5) (k : BitVec 5)
  /-- HGTH (R291). Issues a gather of rows through an index list. -/
  | hgth (t : BitVec 5) (l : BitVec 8) (c : BitVec 5) (k : BitVec 5)
  /-- HSCT (R291). Issues a scatter-add of rows through an index list. -/
  | hsct (t : BitVec 5) (v : BitVec 1) (l : BitVec 8) (c : BitVec 5) (k : BitVec 5)
  /-- HPF (R292). Issues a prefetch into the cluster cache. -/
  | hpf (l : BitVec 8) (c : BitVec 5) (k : BitVec 5)
  /-- HCPY (R293). Issues a copy between two layouts. -/
  | hcpy (d : BitVec 8) (s : BitVec 8) (c : BitVec 5)
  /-- HSEND (R294). Issues a copy to another device over the Ibwald links. -/
  | hsend (d : BitVec 8) (s : BitVec 8) (c : BitVec 5)
  /-- HFILL (R293). Issues a fill of a layout with a pattern. -/
  | hfill (d : BitVec 8) (c : BitVec 5)
  /-- LOAD_RETURN (R166). An outstanding load or returning atomic writes its destination register. -/
  | loadReturn (core : Nat) (st : StreamId)
  /-- STORE_PERFORM (R152). An issued store is performed at its copy, cache or home. -/
  | storePerform (core : Nat) (st : StreamId)
  /-- ATOMIC_PERFORM (R161). An atomic is performed at the word's home in its total order. -/
  | atomicPerform (core : Nat) (st : StreamId)
  /-- FIFO_SERVE (R142). A FIFO-bank access waiting for bytes or room is served. -/
  | fifoServe (core : Nat) (st : StreamId)
  /-- VECTOR_CLAIM (R63). A waiting tile instruction claims its tiles once full/empty conditions hold. -/
  | vectorClaim (core : Nat)
  /-- VECTOR_COMPLETE (R222). A vector-unit instruction completes, ORs status and releases its claims. -/
  | vectorComplete (core : Nat)
  /-- MATRIX_START (R220). The matrix unit starts a queued TM instruction, claims and checks its operands. -/
  | matrixStart (core : Nat)
  /-- MATRIX_BLOCK (R231). A TMMA or TMMAZ completes one block of 16 k values. -/
  | matrixBlock (core : Nat)
  /-- MATRIX_COMPLETE (R221). A TM instruction completes and releases its claims. -/
  | matrixComplete (core : Nat)
  /-- ARRAY_ISSUE (R257). An array instruction passes its waits, copies parameters and marks its panel active. -/
  | arrayIssue (core : Nat)
  /-- ARRAY_UNIT (R274). An array operation completes one stop unit. -/
  | arrayUnit (core panel : Nat)
  /-- ARRAY_COMPLETE (R257). An array operation completes, writes status and ap.stat and releases its panel. -/
  | arrayComplete (core panel : Nat)
  /-- XSW_PAIR (R211). Paired XSWs claim both tiles and start the exchange. -/
  | xswPair (shaft : Nat)
  /-- XSW_COMPLETE (R211). After 32 cycles the tile exchange ends and claims are released. -/
  | xswComplete (shaft : Nat)
  /-- JOIN_MEET (R156). All named streams have arrived and their accesses completed; the JOINs retire. -/
  | joinMeet (core : Nat) (mask : BitVec 4) (scope : BitVec 2)
  /-- PHASE_COMPLETE (R197). A phaser phase completes and waiters whose condition holds complete. -/
  | phaseComplete (cluster phaser : Nat)
  /-- BANK_SWITCH_DONE (R148). A bank's drain ends and it takes its new mode. -/
  | bankSwitchDone (cluster bank : Nat)
  /-- HOIST_COPY_START (R284). A hoist copy starts after the previous copy and claims its tile. -/
  | hoistCopyStart (core : Nat)
  /-- HOIST_CHUNK (R285). One chunk of a hoist copy is performed. -/
  | hoistChunk (core : Nat)
  /-- HOIST_COPY_COMPLETE (R286). A copy completes and writes its token with ordinal and status. -/
  | hoistCopyComplete (core : Nat)
  /-- TRAP_ENTRY (R364). After all streams acknowledge, the C stream enters the handler in privileged state. -/
  | trapEntry (core : Nat)
  /-- HALT_COMPLETE (R216). A halting core's outstanding operations finish and it is reported halted. -/
  | haltComplete (core : Nat)
  /-- POINT_START (R113). A point starts on all crew cores once each has its start state. -/
  | pointStart (rec serial : Nat)
  /-- POINT_END (R114). Every stream has ended and every operation completed; the point ends. -/
  | pointEnd (rec serial : Nat)
  /-- RECORD_DONE (R347). A record becomes DONE after writes are performed and statistics written. -/
  | recordDone (rec : Nat)
  /-- PREEMPT (R372). PCB command that starts a save of the partition's running points. -/
  | preempt (part : Nat)
  /-- SAVE_STOPPED (R372). Every member collector holds all acknowledgements; points are classed RESTART or RESUME. -/
  | saveStopped (part : Nat)
  /-- SAVE_COMPLETE (R372). Images, records and the directory are sealed; SAVED is set. -/
  | saveComplete (part : Nat)
  /-- RESTORE_COMPLETE (R382). Restore finishes loading and checking images; RESTORING clears and dispatch resumes. -/
  | restoreComplete (part : Nat)
  /-- WEIGHT_SCALE_APPLY (R339). An accepted s_w write is applied once the panel is not active. -/
  | weightScaleApply (core panel : Nat)
  /-- PANEL_REMAP (R421). A panel is remapped onto a spare once not active, then calibrated. -/
  | panelRemap (core panel : Nat)
  /-- TRANSLATION_WALK (R393). A translation miss is walked through the tables and cached or faults. -/
  | translationWalk (cluster part va : Nat)
  /-- BLOCK_FETCH (R175). A block not in the loop buffer is fetched, releasing the stalled stream or raising cause 0x0A or 0x0B at the failing parcel. -/
  | blockFetch (core : Nat) (st : StreamId)
  /-- LAMPMAX_EXPIRY (R131). A waiting twin reaches %lampmax cycles and the holder must give up the lamp. -/
  | lampmaxExpiry (core : Nat)
  /-- SPRINT_LIMIT (R405). A sprint reaches 200 ms and ends, starting cool-down. -/
  | sprintLimit (shaft : Nat)
  /-- COOLDOWN_END (R134). The 800 ms sprint cool-down of a shaft ends. -/
  | cooldownEnd (shaft : Nat)
  /-- PAVG_UPDATE (R405). The 10 us update of PAVG ends a sprint if power exceeds PSPRINT. -/
  | pavgUpdate (watts : Nat)
  /-- TEMP_SAMPLE (R407). A shaft temperature sample is acted on at the thermal marks. -/
  | tempSample (shaft degrees : Nat)
  /-- RAIL_GAP (R404). The rail monitor finds the logic rail too far below the SRAM rail and stops the clock. -/
  | railGap (cluster : Nat)
  /-- WATCHDOG_EXPIRY (R139). The crew watchdog reaches %wdog and raises cause 0x15. -/
  | watchdogExpiry (core : Nat)
  /-- ECC_FREEZE (R386). A correctable SRAM error freezes the core for 40 cycles. -/
  | eccFreeze (core : Nat)
  /-- ECC_FREEZE_END (R386). A correctable-error freeze expires. -/
  | eccFreezeEnd (core : Nat)
  /-- UNCORRECTABLE_ERROR (R386). An uncorrectable error outside any stream's read resets the owning partition. -/
  | uncorrectableError (part : Nat)
  /-- CONTEXT_KILL (R361). System software kills a context and VOID records fill its held tickets. -/
  | contextKill (core : Nat)
  /-- FORM (R332). PCB command that forms a partition of whole clusters. -/
  | form (part : Nat)
  /-- DISSOLVE (R333). PCB command that dissolves a partition and destroys its key. -/
  | dissolve (part : Nat)
  /-- SAVE_DEADLINE (R385). A collector's count reaches SAVEDL before its images are sealed; the partition is reset. -/
  | saveDeadline (part : Nat)
  /-- RESTORE (R382). PCB command that restores a sealed save onto its cores. -/
  | restore (part : Nat)
  /-- RELEASE (R371). PCB command that makes halted cores of the partition idle. -/
  | release (part : Nat)
  /-- BUILD (R340). Launch command taking a FREE record's bytes; the record becomes BUILT. -/
  | build (part rec : Nat)
  /-- PATCH (R340). Launch command writing LDATA into a record word. -/
  | patch (part rec word : Nat)
  /-- ARM (R344). Launch command arming a record after its checks. -/
  | arm (part rec : Nat)
  /-- QUERY (R340). Launch command returning a record's state. -/
  | query (part rec : Nat)
  /-- FREE (R340). Launch command returning a record to FREE. -/
  | free (part rec : Nat)
  /-- CLUSTER_BANK_COMMAND (R336). CLCMD GO switches a member cluster's bank mode as BANK does. -/
  | clusterBankCommand (part cluster bank mode : Nat)
  /-- ABORT (R349). RECCMD command making an ARMED, WAITING or ACTIVE record FAULTED. -/
  | abort (rec : Nat)
  /-- QRESUME (R360). QCMD command retrying a faulted put or refill of a queue. -/
  | qresume (cluster queue : Nat)
  /-- QCFG_WRITE (R357). Write of a queue's configuration, with EN resetting its counters. -/
  | qcfgWrite (cluster queue : Nat) (value : BitVec 64)
  /-- QBASE_WRITE (R357). Write of a queue's sump base, refused when misaligned. -/
  | qbaseWrite (cluster queue : Nat) (value : BitVec 64)
  /-- PHCFG_WRITE (R335). Write of a phaser's allocation, mode and owner. -/
  | phcfgWrite (cluster phaser : Nat) (value : BitVec 64)
  /-- ORDCFG_WRITE (R416). Write placing a device phaser in or out of ordered mode. -/
  | ordcfgWrite (phaser : Nat) (value : BitVec 64)
  /-- CORE_ACCESS_WRITE (R333). Host write of a halted core's privileged register through the core access window. -/
  | coreAccessWrite (part offset : Nat) (value : BitVec 64)
  /-- PANEL_CONTROL_WRITE (R339). Write of a panel's weight scale through the panel window. -/
  | panelControlWrite (part offset : Nat) (value : BitVec 64)
  /-- RETIRE (R421). Panel control bit requesting retirement and remapping onto a spare. -/
  | retire (core panel : Nat)
  /-- POOL_WRITE (R331). Host write into a launch record through the pool window. -/
  | poolWrite (offset : Nat) (value : BitVec 64)
  /-- CLPWR_WRITE (R403). Write of a cluster's rail and clock setting, moving rail and clock in order. -/
  | clpwrWrite (cluster : Nat) (value : BitVec 64)
  /-- LRCTL_WRITE (R411). Write of the lamp room's power limits and sprint enable. -/
  | lrctlWrite (value : BitVec 64)
  /-- DEVNUM_WRITE (R341). One-time write of the device's fabric number. -/
  | devnumWrite (value : BitVec 64)
  /-- FQCFG_WRITE (R362). Write of the fault queue size and interrupt enable. -/
  | fqcfgWrite (value : BitVec 64)
  /-- FQHEAD_WRITE (R363). Write of the fault queue head, freeing room for a waiting report. -/
  | fqheadWrite (value : BitVec 64)
  /-- INVALIDATE (R395). XINVCTL GO starts a translation invalidation. -/
  | invalidate (value : BitVec 64)
  /-- IBPORT_WRITE (R412). Write enabling or disabling an Ibwald port. -/
  | ibportWrite (port : Nat) (value : BitVec 64)
  /-- REGISTER_WRITE (R5). Write of a register that has no row of its own. -/
  | registerWrite (offset : Nat) (value : BitVec 64)
  /-- HOST_WINDOW_ACCESS (R396). Host access through a BAR 2 window translated into partition memory. -/
  | hostWindowAccess (window offset size : Nat) (write : Bool) (value : BitVec 64)
  /-- HOST_ATOMICOP (R163). Host PCIe AtomicOp to device memory. -/
  | hostAtomicop (window offset size : Nat) (op : HostAtomic) (value expected : BitVec 64)
  /-- GET_CERTIFICATE (R401). SPDM certificate chain request. -/
  | getCertificate (slot : Nat)
  /-- CHALLENGE (R401). SPDM challenge signed with the alias key. -/
  | challenge (nonce : Nat)
  /-- GET_MEASUREMENTS (R402). SPDM request for the measurement blocks. -/
  | getMeasurements (index : Nat)
  /-- KEY_EXCHANGE (R401). SPDM session key exchange, refused Busy past 4 sessions. -/
  | keyExchange (share : Nat)
  /-- FINISH (R401). SPDM request completing session establishment. -/
  | finish (session : Nat)
  /-- VENDOR_DEFINED_REQUEST (R401). In-session SPDM request carrying a launch command. -/
  | vendorDefinedRequest (session part rec : Nat) (cmd : HostCommand)
  /-- SPDM_OTHER_REQUEST (R401). Any other SPDM request, answered with UnsupportedRequest. -/
  | spdmOtherRequest (code : Nat)
  /-- LINK_RETRY (R412). An unacknowledged Ibwald flit is retried. -/
  | linkRetry (port : Nat)
  /-- PORT_STATE_CHANGE (R413). An Ibwald port goes up or down, ending copies that lose their route. -/
  | portStateChange (port state peer : Nat)
  /-- REMOTE_CHUNK_ARRIVAL (R416). A remote HSEND or HSTA chunk arrives and is applied or held for its turn. -/
  | remoteChunkArrival (source : Nat) (chunk : RemoteChunk)
  /-- RING_HOP_FAILURE (R414). A gallery ring hop fails and clusters beyond it are lost. -/
  | ringHopFailure (hop : Nat)
  /-- DEVICE_RESET (R400). Reset: the collar ROM checks and measures the firmware image. -/
  | deviceReset (image : FlashImage)
  /-- RAIL_TRIM_DONE (R419). A cluster's rail trim completes and it takes its reset rail and clock. -/
  | railTrimDone (cluster : Nat)
  /-- PANEL_CAL_DONE (R420). A panel's calibration completes and it joins service. -/
  | panelCalDone (core panel : Nat) (ok : Bool)
  /-- SEALED_READ (R331). A host read of a sealed partition's launch records or queue registers outside an SPDM session returns all ones and is logged with kind 4. -/
  | sealedRead (offset : Nat)
  /-- RAIL_GAP_RESTORED (R404). The rail monitor finds the logic-rail gap back within 250 mV and the cluster's stopped clock runs again. -/
  | railGapRestored (cluster : Nat)
  /-- NOP (R82). 16-bit no-operation; only 0x0000 is NOP. -/
  | nop
  /-- PEND_16 (R208). 16-bit form of PEND: ends the stream's part in the point. -/
  | pend16
  /-- RET (R174). Pops the call stack and resumes at that header. -/
  | ret
  /-- PEND (R208). Ends the stream's part in the point and drops its phaser registrations. -/
  | pend
  /-- LAMPQ (R209). Requests the shaft's lamp if the core neither holds nor requests it. -/
  | lampq
  /-- LAMPREL (R209). Gives up the lamp, or withdraws a pending request. -/
  | lamprel
  /-- RETT (R366). Leaves privileged state, delivers any held trap or resumes every stream. -/
  | rett
  /-- HALT (R216). Stops all four streams after outstanding operations complete and reports the core halted. -/
  | halt
  /-- HEADFRAME_ROUND (R345). A headframe round serves requests, completions, state resolution, fire tests and dispatch. -/
  | headframeRound
  /-- INVALIDATION_DONE (R395). All caches, walks and accesses are done and BUSY clears. -/
  | invalidationDone
  /-- GET_VERSION (R401). SPDM request answered with version 1.3. -/
  | getVersion
  /-- GET_CAPABILITIES (R401). SPDM capabilities request. -/
  | getCapabilities
  /-- NEGOTIATE_ALGORITHMS (R401). SPDM algorithm negotiation. -/
  | negotiateAlgorithms
  /-- GET_DIGESTS (R401). SPDM certificate digest request. -/
  | getDigests
  /-- FIRMWARE_START (R419). The firmware starts and the device enters reduced service. -/
  | firmwareStart
  /-- POWER_OFF (R245). Module power is removed: fast weights lose their values while slow weights and the non-volatile advisory are retained. -/
  | powerOff
  deriving DecidableEq, Repr

end Sys2Proof
end

