-- ==== Sys2Proof/WellFormed.lean ====
section
/-! DEFINITION. What an instruction must satisfy beyond the shape of its ruler (R61, R84, R85, R93, R94, R99).

Every check refused here is an illegal encoding, cause 0x01 (R103, item 2). -/

namespace Sys2Proof

/-- Why the fields of an instruction are refused. -/
inductive WfError where
  /-- a run of scalar registers would pass s31 (R85) -/
  | registerRun
  /-- JOIN with mask 0 or scope 3 (R93) -/
  | joinFields
  /-- PHREG or PHROLE with role 0 (R93) -/
  | roleZero
  /-- CARVE with a tile count outside 8 to 32 (R93) -/
  | carveCount
  /-- BANK with mode 3 (R94) -/
  | bankMode
  /-- a destination tile whose view is not N (R61, R97, R99) -/
  | destinationView
  /-- a consume mark where none is allowed (R61, R84) -/
  | markSet
  deriving DecidableEq, Repr

/-- A tile operand of R61: number in [7:3], view in [2:1], mark in [0]. -/
abbrev TileField := BitVec 8

/-- The view code of a tile operand (R61). -/
def TileField.view (t : TileField) : Nat := t.toNat / 2 % 4

/-- The tile number of a tile operand (R61). -/
def TileField.tile (t : TileField) : Nat := t.toNat / 8

/-- The mark bit of a tile operand (R61). -/
def TileField.mark (t : TileField) : Bool := t.toNat % 2 == 1

/-- A destination tile has view N (R61). -/
def checkDest (t : TileField) : Option WfError :=
  if t.view = 0 then none else some .destinationView

/-- A tile operand of a TD function: view N, and no mark (R61, R99). -/
def checkTd (t : TileField) : Option WfError :=
  if t.view ≠ 0 then some .destinationView else if t.mark then some .markSet else none

/-- A run of registers whose first may be at most `top` (R85). -/
def checkRun (top : Nat) (r : Reg) : Option WfError :=
  if r.toNat ≤ top then none else some .registerRun

/-- A phaser role other than 0 (R93). -/
def checkRole (r : BitVec 2) : Option WfError :=
  if r = 0 then some .roleZero else none

/-- The checks on the fields of each instruction: none where they pass. -/
def Instr.check : Instr → Option WfError
  | .atcas d _ _ _ => checkRun 30 d
  | .join s m => if m = 0 ∨ s = 3 then some .joinFields else none
  | .phreg _ r => checkRole r
  | .phrole _ r => checkRole r
  | .qput d _ => checkRun 24 d
  | .qpub d _ => checkRun 24 d
  | .qtake d _ => checkRun 24 d
  | .qtry d _ => checkRun 24 d
  | .rnext d => checkRun 30 d
  | .carve _ n => if 8 ≤ n.toNat ∧ n.toNat ≤ 32 then none else some .carveCount
  | .bank m _ => if m = 3 then some .bankMode else none
  | .tadd d _ _ => checkDest d
  | .tsub d _ _ => checkDest d
  | .tmul d _ _ => checkDest d
  | .tfma d _ _ => checkDest d
  | .tmax d _ _ => checkDest d
  | .tmin d _ _ => checkDest d
  | .tclt d _ _ => checkDest d
  | .tceq d _ _ => checkDest d
  | .tsel d _ _ => checkDest d
  | .tsrnd d _ _ => checkDest d
  | .tmov d _ => checkDest d
  | .tneg d _ => checkDest d
  | .tabs d _ => checkDest d
  | .texp2 d _ => checkDest d
  | .tlog2 d _ => checkDest d
  | .trcp d _ => checkDest d
  | .trsq d _ => checkDest d
  | .tsqrt d _ => checkDest d
  | .tsig d _ => checkDest d
  | .ttanh d _ => checkDest d
  | .tsilu d _ => checkDest d
  | .tgelu d _ => checkDest d
  | .tscal d _ _ => checkDest d
  | .tadds d _ _ => checkDest d
  | .trsum d _ => checkDest d
  | .trmax d _ => checkDest d
  | .tcsum d _ => checkDest d
  | .tcmax d _ => checkDest d
  | .trowx d _ _ => checkDest d
  | .trowi d _ _ => checkDest d
  | .tfill d _ => checkDest d
  | .tiota d => checkDest d
  | .tclamp d _ _ => checkDest d
  | .tdrain _ d _ _ _ _ => checkDest d
  | .tcvt d _ _ _ _ => checkDest d
  | .tqnt d _ _ => checkDest d
  | .tdqnt d _ _ _ => checkDest d
  | .ttrl d _ => checkDest d
  | .tdesc d _ _ _ => checkTd d
  | .tempty d => checkTd d
  | .tfull d => checkTd d
  | .tdrd d _ => checkTd d
  | .trand d => checkTd d
  | .tstats d _ => checkDest d
  | .tget d _ _ => checkDest d
  | .tset d _ _ => checkTd d
  | .hcpy _ _ c => checkRun 29 c
  | .hsend _ _ c => checkRun 29 c
  | .hfill _ c => checkRun 29 c
  | .nop | .mov16 .. | .add16 .. | .sub16 .. | .and16 .. | .or16 .. | .xor16 .. | .addi16 .. | .ldi16 ..
  | .shli16 .. | .shri16 .. | .cadd16 .. | .epost16 .. | .ewait16 .. | .tempty16 .. | .pend16 | .add ..
  | .sub .. | .mul .. | .mulhs .. | .mulhu .. | .div .. | .divu .. | .rem .. | .remu .. | .and .. | .or ..
  | .xor .. | .andn .. | .shl .. | .shr .. | .sar .. | .min .. | .max .. | .minu .. | .maxu .. | .slt ..
  | .sltu .. | .seq .. | .sne .. | .sel .. | .clz .. | .popc .. | .ctz .. | .cadd .. | .addi .. | .andi ..
  | .ori .. | .xori .. | .shli .. | .shri .. | .sari .. | .slti .. | .sltui .. | .seqi .. | .muli ..
  | .ldi .. | .insi .. | .ldin .. | .beq .. | .bne .. | .blt .. | .bge .. | .bltu .. | .bgeu .. | .jmp ..
  | .call .. | .ret | .jmpr .. | .callr .. | .ldb .. | .ldbs .. | .ldh .. | .ldhs .. | .ldw .. | .ldws ..
  | .ldd .. | .ldf .. | .stb .. | .sth .. | .stw .. | .std .. | .ste .. | .ldfe .. | .stf .. | .sete ..
  | .atadd .. | .ataddw .. | .atfadd .. | .atmin .. | .atmax .. | .atminu .. | .atmaxu .. | .atand ..
  | .ator .. | .atxor .. | .atxchg .. | .atfmin .. | .atfmax .. | .epost .. | .ewait .. | .ewaitk ..
  | .waitc .. | .phsig .. | .phwait .. | .phnext .. | .phdrop .. | .phexp .. | .qres .. | .lpatch ..
  | .larm .. | .lquery .. | .pend | .lampq | .lamprel | .lampst .. | .wrd .. | .wwr .. | .xsw .. | .rlabel ..
  | .pcoord .. | .pself .. | .srd .. | .swr .. | .trap .. | .rett | .halt | .pace .. | .bkpt .. | .chk ..
  | .tmma .. | .tmmaz .. | .tdrainm .. | .taclr .. | .tseed .. | .afwd .. | .abwd .. | .aupd .. | .axfr ..
  | .acal .. | .aasy .. | .aprog .. | .argrw .. | .amask .. | .aseed .. | .astat .. | .azero ..
  | .asetWrite .. | .asetRead .. | .hld .. | .hst .. | .hsta .. | .hgth .. | .hsct .. | .hpf ..
  | .loadReturn .. | .storePerform .. | .atomicPerform .. | .fifoServe .. | .vectorClaim ..
  | .vectorComplete .. | .matrixStart .. | .matrixBlock .. | .matrixComplete .. | .arrayIssue ..
  | .arrayUnit .. | .arrayComplete .. | .xswPair .. | .xswComplete .. | .joinMeet .. | .phaseComplete ..
  | .bankSwitchDone .. | .hoistCopyStart .. | .hoistChunk .. | .hoistCopyComplete .. | .lampmaxExpiry ..
  | .sprintLimit .. | .cooldownEnd .. | .pavgUpdate .. | .tempSample .. | .railGap .. | .watchdogExpiry ..
  | .trapEntry .. | .haltComplete .. | .eccFreeze .. | .eccFreezeEnd .. | .uncorrectableError ..
  | .headframeRound .. | .pointStart .. | .pointEnd .. | .recordDone .. | .contextKill .. | .form ..
  | .dissolve .. | .preempt .. | .saveStopped .. | .saveComplete .. | .saveDeadline .. | .restore ..
  | .restoreComplete .. | .release .. | .build .. | .patch .. | .arm .. | .query .. | .free ..
  | .clusterBankCommand .. | .abort .. | .qresume .. | .qcfgWrite .. | .qbaseWrite .. | .phcfgWrite ..
  | .ordcfgWrite .. | .coreAccessWrite .. | .panelControlWrite .. | .weightScaleApply .. | .retire ..
  | .panelRemap .. | .poolWrite .. | .clpwrWrite .. | .lrctlWrite .. | .devnumWrite .. | .fqcfgWrite ..
  | .fqheadWrite .. | .invalidate .. | .invalidationDone .. | .translationWalk .. | .ibportWrite ..
  | .registerWrite .. | .hostWindowAccess .. | .hostAtomicop .. | .getVersion .. | .getCapabilities ..
  | .negotiateAlgorithms .. | .getDigests .. | .getCertificate .. | .challenge .. | .getMeasurements ..
  | .keyExchange .. | .finish .. | .vendorDefinedRequest .. | .spdmOtherRequest .. | .linkRetry ..
  | .portStateChange .. | .remoteChunkArrival .. | .ringHopFailure .. | .deviceReset .. | .firmwareStart ..
  | .railTrimDone .. | .panelCalDone .. | .sealedRead .. | .railGapRestored .. | .blockFetch ..
  | .powerOff .. => none

/-- A well-formed instruction: every check passes. -/
def Instr.wf (i : Instr) : Bool := i.check.isNone

end Sys2Proof
end

