-- ==== Sys2Proof/Decode.lean ====
section
/-! DEFINITION. The decoder, total on any bytes, and the encoder (R76 to R103, 04_encoding.md).

A 32-bit word is numbered W[31:0]; memory holds W[31:16] first, each halfword little-endian (R77). -/

namespace Sys2Proof

/-- Why a parcel is not an instruction. Every one raises cause 0x01 (R84, R103), but for `headerInBody` and
`truncated`, which are the reasons 1 and 3 of the malformed block (R79). -/
inductive DecodeError where
  /-- an op, function or condition value the maps do not assign (R84) -/
  | unassigned
  /-- a non-zero bit in a field a map marks 0 or unused (R84) -/
  | mustBeZero
  /-- a check of `Instr.check` fails -/
  | illFormed (why : WfError)
  /-- W[31:24] = 0xFF inside a body (R79, reason 1) -/
  | headerInBody
  /-- the bytes end before the parcel does -/
  | truncated
  deriving DecidableEq, Repr

/-- The field of `w` of `n` bits that starts at bit `lo`. -/
def fld (w lo n : Nat) : Nat := w / 2 ^ lo % 2 ^ n

/-- The same field as a bit vector of its width. -/
def bits (w lo n : Nat) : BitVec n := BitVec.ofNat n (w / 2 ^ lo)

/-- The 16-bit forms (R82). -/
def decodeH16 (w : Nat) : Except DecodeError Instr :=
  match fld w 10 5 with
  | 0 =>
      if fld w 0 10 = 0 then
        .ok (.nop)
      else .error .mustBeZero
  | 1 => .ok (.mov16 (bits w 5 5) (bits w 0 5))
  | 2 => .ok (.add16 (bits w 5 5) (bits w 0 5))
  | 3 => .ok (.sub16 (bits w 5 5) (bits w 0 5))
  | 4 => .ok (.and16 (bits w 5 5) (bits w 0 5))
  | 5 => .ok (.or16 (bits w 5 5) (bits w 0 5))
  | 6 => .ok (.xor16 (bits w 5 5) (bits w 0 5))
  | 7 => .ok (.addi16 (bits w 5 5) (bits w 0 5))
  | 8 => .ok (.ldi16 (bits w 5 5) (bits w 0 5))
  | 9 => .ok (.shli16 (bits w 5 5) (bits w 0 5))
  | 10 => .ok (.shri16 (bits w 5 5) (bits w 0 5))
  | 11 => .ok (.cadd16 (bits w 5 5) (bits w 0 5))
  | 12 =>
      if fld w 5 5 = 0 then
        .ok (.epost16 (bits w 0 5))
      else .error .mustBeZero
  | 13 =>
      if fld w 5 5 = 0 then
        .ok (.ewait16 (bits w 0 5))
      else .error .mustBeZero
  | 14 =>
      if fld w 5 5 = 0 then
        .ok (.tempty16 (bits w 0 5))
      else .error .mustBeZero
  | 15 =>
      if fld w 0 10 = 0 then
        .ok (.pend16)
      else .error .mustBeZero
  | _ => .error .unassigned

/-- The SR ruler (R86, R87). -/
def decodeSR (w : Nat) : Except DecodeError Instr :=
  match fld w 0 6 with
  | 0 =>
      if fld w 6 5 = 0 then
        .ok (.add (bits w 21 5) (bits w 16 5) (bits w 11 5))
      else .error .mustBeZero
  | 1 =>
      if fld w 6 5 = 0 then
        .ok (.sub (bits w 21 5) (bits w 16 5) (bits w 11 5))
      else .error .mustBeZero
  | 2 =>
      if fld w 6 5 = 0 then
        .ok (.mul (bits w 21 5) (bits w 16 5) (bits w 11 5))
      else .error .mustBeZero
  | 3 =>
      if fld w 6 5 = 0 then
        .ok (.mulhs (bits w 21 5) (bits w 16 5) (bits w 11 5))
      else .error .mustBeZero
  | 4 =>
      if fld w 6 5 = 0 then
        .ok (.mulhu (bits w 21 5) (bits w 16 5) (bits w 11 5))
      else .error .mustBeZero
  | 5 =>
      if fld w 6 5 = 0 then
        .ok (.div (bits w 21 5) (bits w 16 5) (bits w 11 5))
      else .error .mustBeZero
  | 6 =>
      if fld w 6 5 = 0 then
        .ok (.divu (bits w 21 5) (bits w 16 5) (bits w 11 5))
      else .error .mustBeZero
  | 7 =>
      if fld w 6 5 = 0 then
        .ok (.rem (bits w 21 5) (bits w 16 5) (bits w 11 5))
      else .error .mustBeZero
  | 8 =>
      if fld w 6 5 = 0 then
        .ok (.remu (bits w 21 5) (bits w 16 5) (bits w 11 5))
      else .error .mustBeZero
  | 9 =>
      if fld w 6 5 = 0 then
        .ok (.and (bits w 21 5) (bits w 16 5) (bits w 11 5))
      else .error .mustBeZero
  | 10 =>
      if fld w 6 5 = 0 then
        .ok (.or (bits w 21 5) (bits w 16 5) (bits w 11 5))
      else .error .mustBeZero
  | 11 =>
      if fld w 6 5 = 0 then
        .ok (.xor (bits w 21 5) (bits w 16 5) (bits w 11 5))
      else .error .mustBeZero
  | 12 =>
      if fld w 6 5 = 0 then
        .ok (.andn (bits w 21 5) (bits w 16 5) (bits w 11 5))
      else .error .mustBeZero
  | 13 =>
      if fld w 6 5 = 0 then
        .ok (.shl (bits w 21 5) (bits w 16 5) (bits w 11 5))
      else .error .mustBeZero
  | 14 =>
      if fld w 6 5 = 0 then
        .ok (.shr (bits w 21 5) (bits w 16 5) (bits w 11 5))
      else .error .mustBeZero
  | 15 =>
      if fld w 6 5 = 0 then
        .ok (.sar (bits w 21 5) (bits w 16 5) (bits w 11 5))
      else .error .mustBeZero
  | 16 =>
      if fld w 6 5 = 0 then
        .ok (.min (bits w 21 5) (bits w 16 5) (bits w 11 5))
      else .error .mustBeZero
  | 17 =>
      if fld w 6 5 = 0 then
        .ok (.max (bits w 21 5) (bits w 16 5) (bits w 11 5))
      else .error .mustBeZero
  | 18 =>
      if fld w 6 5 = 0 then
        .ok (.minu (bits w 21 5) (bits w 16 5) (bits w 11 5))
      else .error .mustBeZero
  | 19 =>
      if fld w 6 5 = 0 then
        .ok (.maxu (bits w 21 5) (bits w 16 5) (bits w 11 5))
      else .error .mustBeZero
  | 20 =>
      if fld w 6 5 = 0 then
        .ok (.slt (bits w 21 5) (bits w 16 5) (bits w 11 5))
      else .error .mustBeZero
  | 21 =>
      if fld w 6 5 = 0 then
        .ok (.sltu (bits w 21 5) (bits w 16 5) (bits w 11 5))
      else .error .mustBeZero
  | 22 =>
      if fld w 6 5 = 0 then
        .ok (.seq (bits w 21 5) (bits w 16 5) (bits w 11 5))
      else .error .mustBeZero
  | 23 =>
      if fld w 6 5 = 0 then
        .ok (.sne (bits w 21 5) (bits w 16 5) (bits w 11 5))
      else .error .mustBeZero
  | 24 =>
      if fld w 6 5 = 0 then
        .ok (.sel (bits w 21 5) (bits w 16 5) (bits w 11 5))
      else .error .mustBeZero
  | 25 =>
      if fld w 6 10 = 0 then
        .ok (.clz (bits w 21 5) (bits w 16 5))
      else .error .mustBeZero
  | 26 =>
      if fld w 6 10 = 0 then
        .ok (.popc (bits w 21 5) (bits w 16 5))
      else .error .mustBeZero
  | 27 =>
      if fld w 6 10 = 0 then
        .ok (.ctz (bits w 21 5) (bits w 16 5))
      else .error .mustBeZero
  | 28 =>
      if fld w 6 5 = 0 then
        .ok (.cadd (bits w 21 5) (bits w 16 5) (bits w 11 5))
      else .error .mustBeZero
  | _ => .error .unassigned

/-- The SI ruler (R86, R88). -/
def decodeSI (w : Nat) : Except DecodeError Instr :=
  match fld w 12 4 with
  | 0 => .ok (.addi (bits w 21 5) (bits w 16 5) (bits w 0 12))
  | 1 => .ok (.andi (bits w 21 5) (bits w 16 5) (bits w 0 12))
  | 2 => .ok (.ori (bits w 21 5) (bits w 16 5) (bits w 0 12))
  | 3 => .ok (.xori (bits w 21 5) (bits w 16 5) (bits w 0 12))
  | 4 =>
      if fld w 6 6 = 0 then
        .ok (.shli (bits w 21 5) (bits w 16 5) (bits w 0 6))
      else .error .mustBeZero
  | 5 =>
      if fld w 6 6 = 0 then
        .ok (.shri (bits w 21 5) (bits w 16 5) (bits w 0 6))
      else .error .mustBeZero
  | 6 =>
      if fld w 6 6 = 0 then
        .ok (.sari (bits w 21 5) (bits w 16 5) (bits w 0 6))
      else .error .mustBeZero
  | 7 => .ok (.slti (bits w 21 5) (bits w 16 5) (bits w 0 12))
  | 8 => .ok (.sltui (bits w 21 5) (bits w 16 5) (bits w 0 12))
  | 9 => .ok (.seqi (bits w 21 5) (bits w 16 5) (bits w 0 12))
  | 10 => .ok (.muli (bits w 21 5) (bits w 16 5) (bits w 0 12))
  | _ => .error .unassigned

/-- The MV ruler (R86, R89). -/
def decodeMV (w : Nat) : Except DecodeError Instr :=
  match fld w 16 3 with
  | 0 => .ok (.ldi (bits w 21 5) (bits w 19 2) (bits w 0 16))
  | 1 => .ok (.insi (bits w 21 5) (bits w 19 2) (bits w 0 16))
  | 2 => .ok (.ldin (bits w 21 5) (bits w 19 2) (bits w 0 16))
  | _ => .error .unassigned

/-- The BR ruler (R86, R90). -/
def decodeBR (w : Nat) : Except DecodeError Instr :=
  match fld w 12 4 with
  | 0 => .ok (.beq (bits w 21 5) (bits w 16 5) (bits w 0 12))
  | 1 => .ok (.bne (bits w 21 5) (bits w 16 5) (bits w 0 12))
  | 2 => .ok (.blt (bits w 21 5) (bits w 16 5) (bits w 0 12))
  | 3 => .ok (.bge (bits w 21 5) (bits w 16 5) (bits w 0 12))
  | 4 => .ok (.bltu (bits w 21 5) (bits w 16 5) (bits w 0 12))
  | 5 => .ok (.bgeu (bits w 21 5) (bits w 16 5) (bits w 0 12))
  | 6 =>
      if fld w 16 10 = 0 then
        .ok (.jmp (bits w 0 12))
      else .error .mustBeZero
  | 7 =>
      if fld w 16 10 = 0 then
        .ok (.call (bits w 0 12))
      else .error .mustBeZero
  | 8 =>
      if fld w 0 12 = 0 ∧ fld w 16 10 = 0 then
        .ok (.ret)
      else .error .mustBeZero
  | 9 =>
      if fld w 0 12 = 0 ∧ fld w 16 5 = 0 then
        .ok (.jmpr (bits w 21 5))
      else .error .mustBeZero
  | 10 =>
      if fld w 0 12 = 0 ∧ fld w 16 5 = 0 then
        .ok (.callr (bits w 21 5))
      else .error .mustBeZero
  | _ => .error .unassigned

/-- The MEM ruler (R91). -/
def decodeMEM (w : Nat) : Except DecodeError Instr :=
  match fld w 5 4 with
  | 0 =>
      if fld w 0 3 = 0 then
        .ok (.ldb (bits w 22 5) (bits w 17 5) (bits w 9 8) (bits w 3 2))
      else .error .mustBeZero
  | 1 =>
      if fld w 0 3 = 0 then
        .ok (.ldbs (bits w 22 5) (bits w 17 5) (bits w 9 8) (bits w 3 2))
      else .error .mustBeZero
  | 2 =>
      if fld w 0 3 = 0 then
        .ok (.ldh (bits w 22 5) (bits w 17 5) (bits w 9 8) (bits w 3 2))
      else .error .mustBeZero
  | 3 =>
      if fld w 0 3 = 0 then
        .ok (.ldhs (bits w 22 5) (bits w 17 5) (bits w 9 8) (bits w 3 2))
      else .error .mustBeZero
  | 4 =>
      if fld w 0 3 = 0 then
        .ok (.ldw (bits w 22 5) (bits w 17 5) (bits w 9 8) (bits w 3 2))
      else .error .mustBeZero
  | 5 =>
      if fld w 0 3 = 0 then
        .ok (.ldws (bits w 22 5) (bits w 17 5) (bits w 9 8) (bits w 3 2))
      else .error .mustBeZero
  | 6 =>
      if fld w 0 3 = 0 then
        .ok (.ldd (bits w 22 5) (bits w 17 5) (bits w 9 8) (bits w 3 2))
      else .error .mustBeZero
  | 7 =>
      if fld w 0 3 = 0 then
        .ok (.ldf (bits w 22 5) (bits w 17 5) (bits w 9 8) (bits w 3 2))
      else .error .mustBeZero
  | 8 =>
      if fld w 0 3 = 0 then
        .ok (.stb (bits w 22 5) (bits w 17 5) (bits w 9 8) (bits w 3 2))
      else .error .mustBeZero
  | 9 =>
      if fld w 0 3 = 0 then
        .ok (.sth (bits w 22 5) (bits w 17 5) (bits w 9 8) (bits w 3 2))
      else .error .mustBeZero
  | 10 =>
      if fld w 0 3 = 0 then
        .ok (.stw (bits w 22 5) (bits w 17 5) (bits w 9 8) (bits w 3 2))
      else .error .mustBeZero
  | 11 =>
      if fld w 0 3 = 0 then
        .ok (.std (bits w 22 5) (bits w 17 5) (bits w 9 8) (bits w 3 2))
      else .error .mustBeZero
  | 12 =>
      if fld w 0 3 = 0 then
        .ok (.ste (bits w 22 5) (bits w 17 5) (bits w 9 8) (bits w 3 2))
      else .error .mustBeZero
  | 13 =>
      if fld w 0 3 = 0 then
        .ok (.ldfe (bits w 22 5) (bits w 17 5) (bits w 9 8) (bits w 3 2))
      else .error .mustBeZero
  | 14 =>
      if fld w 0 3 = 0 then
        .ok (.stf (bits w 22 5) (bits w 17 5) (bits w 9 8) (bits w 3 2))
      else .error .mustBeZero
  | 15 =>
      if fld w 0 3 = 0 ∧ fld w 22 5 = 0 then
        .ok (.sete (bits w 17 5) (bits w 9 8) (bits w 3 2))
      else .error .mustBeZero
  | _ => .error .unassigned

/-- The AT ruler (R91). -/
def decodeAT (w : Nat) : Except DecodeError Instr :=
  match fld w 4 5 with
  | 0 =>
      if fld w 0 1 = 0 then
        .ok (.atadd (bits w 22 5) (bits w 17 5) (bits w 9 8) (bits w 2 2) (bits w 1 1))
      else .error .mustBeZero
  | 1 =>
      if fld w 0 1 = 0 then
        .ok (.ataddw (bits w 22 5) (bits w 17 5) (bits w 9 8) (bits w 2 2) (bits w 1 1))
      else .error .mustBeZero
  | 2 =>
      if fld w 0 1 = 0 then
        .ok (.atfadd (bits w 22 5) (bits w 17 5) (bits w 9 8) (bits w 2 2) (bits w 1 1))
      else .error .mustBeZero
  | 3 =>
      if fld w 0 1 = 0 then
        .ok (.atmin (bits w 22 5) (bits w 17 5) (bits w 9 8) (bits w 2 2) (bits w 1 1))
      else .error .mustBeZero
  | 4 =>
      if fld w 0 1 = 0 then
        .ok (.atmax (bits w 22 5) (bits w 17 5) (bits w 9 8) (bits w 2 2) (bits w 1 1))
      else .error .mustBeZero
  | 5 =>
      if fld w 0 1 = 0 then
        .ok (.atminu (bits w 22 5) (bits w 17 5) (bits w 9 8) (bits w 2 2) (bits w 1 1))
      else .error .mustBeZero
  | 6 =>
      if fld w 0 1 = 0 then
        .ok (.atmaxu (bits w 22 5) (bits w 17 5) (bits w 9 8) (bits w 2 2) (bits w 1 1))
      else .error .mustBeZero
  | 7 =>
      if fld w 0 1 = 0 then
        .ok (.atand (bits w 22 5) (bits w 17 5) (bits w 9 8) (bits w 2 2) (bits w 1 1))
      else .error .mustBeZero
  | 8 =>
      if fld w 0 1 = 0 then
        .ok (.ator (bits w 22 5) (bits w 17 5) (bits w 9 8) (bits w 2 2) (bits w 1 1))
      else .error .mustBeZero
  | 9 =>
      if fld w 0 1 = 0 then
        .ok (.atxor (bits w 22 5) (bits w 17 5) (bits w 9 8) (bits w 2 2) (bits w 1 1))
      else .error .mustBeZero
  | 10 =>
      if fld w 0 1 = 0 then
        .ok (.atxchg (bits w 22 5) (bits w 17 5) (bits w 9 8) (bits w 2 2) (bits w 1 1))
      else .error .mustBeZero
  | 11 =>
      if fld w 0 1 = 0 ∧ fld w 1 1 = 1 then
        .ok (.atcas (bits w 22 5) (bits w 17 5) (bits w 9 8) (bits w 2 2))
      else .error .mustBeZero
  | 12 =>
      if fld w 0 1 = 0 then
        .ok (.atfmin (bits w 22 5) (bits w 17 5) (bits w 9 8) (bits w 2 2) (bits w 1 1))
      else .error .mustBeZero
  | 13 =>
      if fld w 0 1 = 0 then
        .ok (.atfmax (bits w 22 5) (bits w 17 5) (bits w 9 8) (bits w 2 2) (bits w 1 1))
      else .error .mustBeZero
  | _ => .error .unassigned

/-- The SYNC ruler (R92, R93). -/
def decodeSYNC (w : Nat) : Except DecodeError Instr :=
  match fld w 11 6 with
  | 0 =>
      if fld w 5 6 = 0 ∧ fld w 17 10 = 0 then
        .ok (.epost (bits w 0 5))
      else .error .mustBeZero
  | 1 =>
      if fld w 5 6 = 0 ∧ fld w 17 10 = 0 then
        .ok (.ewait (bits w 0 5))
      else .error .mustBeZero
  | 2 =>
      if fld w 5 6 = 0 ∧ fld w 17 10 = 0 then
        .ok (.ewaitk (bits w 0 5))
      else .error .mustBeZero
  | 3 =>
      if fld w 17 10 = 0 then
        .ok (.waitc (bits w 9 2) (bits w 7 2) (bits w 4 3) (bits w 0 4))
      else .error .mustBeZero
  | 4 =>
      if fld w 6 5 = 0 ∧ fld w 17 10 = 0 then
        .ok (.join (bits w 4 2) (bits w 0 4))
      else .error .mustBeZero
  | 5 =>
      if fld w 2 9 = 0 ∧ fld w 22 5 = 0 then
        .ok (.phreg (bits w 17 5) (bits w 0 2))
      else .error .mustBeZero
  | 6 =>
      if fld w 0 11 = 0 ∧ fld w 22 5 = 0 then
        .ok (.phsig (bits w 17 5))
      else .error .mustBeZero
  | 7 =>
      if fld w 0 11 = 0 then
        .ok (.phwait (bits w 22 5) (bits w 17 5))
      else .error .mustBeZero
  | 8 =>
      if fld w 0 11 = 0 then
        .ok (.phnext (bits w 22 5) (bits w 17 5))
      else .error .mustBeZero
  | 9 =>
      if fld w 0 11 = 0 ∧ fld w 22 5 = 0 then
        .ok (.phdrop (bits w 17 5))
      else .error .mustBeZero
  | 10 =>
      if fld w 2 9 = 0 ∧ fld w 22 5 = 0 then
        .ok (.phrole (bits w 17 5) (bits w 0 2))
      else .error .mustBeZero
  | 11 =>
      if fld w 0 11 = 0 then
        .ok (.phexp (bits w 22 5) (bits w 17 5))
      else .error .mustBeZero
  | 12 =>
      if fld w 0 11 = 0 then
        .ok (.qput (bits w 22 5) (bits w 17 5))
      else .error .mustBeZero
  | 13 =>
      if fld w 0 11 = 0 then
        .ok (.qres (bits w 22 5) (bits w 17 5))
      else .error .mustBeZero
  | 14 =>
      if fld w 0 11 = 0 then
        .ok (.qpub (bits w 22 5) (bits w 17 5))
      else .error .mustBeZero
  | 15 =>
      if fld w 0 11 = 0 then
        .ok (.qtake (bits w 22 5) (bits w 17 5))
      else .error .mustBeZero
  | 16 =>
      if fld w 0 11 = 0 then
        .ok (.qtry (bits w 22 5) (bits w 17 5))
      else .error .mustBeZero
  | 17 =>
      if fld w 0 11 = 0 ∧ fld w 17 5 = 0 then
        .ok (.rnext (bits w 22 5))
      else .error .mustBeZero
  | 18 => .ok (.lpatch (bits w 22 5) (bits w 17 5) (bits w 0 11))
  | 19 =>
      if fld w 0 11 = 0 ∧ fld w 22 5 = 0 then
        .ok (.larm (bits w 17 5))
      else .error .mustBeZero
  | 20 =>
      if fld w 0 11 = 0 then
        .ok (.lquery (bits w 22 5) (bits w 17 5))
      else .error .mustBeZero
  | 21 =>
      if fld w 0 11 = 0 ∧ fld w 17 10 = 0 then
        .ok (.pend)
      else .error .mustBeZero
  | 22 =>
      if fld w 0 11 = 0 ∧ fld w 17 10 = 0 then
        .ok (.lampq)
      else .error .mustBeZero
  | 23 =>
      if fld w 0 11 = 0 ∧ fld w 17 10 = 0 then
        .ok (.lamprel)
      else .error .mustBeZero
  | 24 =>
      if fld w 0 11 = 0 ∧ fld w 17 5 = 0 then
        .ok (.lampst (bits w 22 5))
      else .error .mustBeZero
  | 25 =>
      if fld w 3 8 = 0 ∧ fld w 17 5 = 0 then
        .ok (.wrd (bits w 22 5) (bits w 0 3))
      else .error .mustBeZero
  | 26 =>
      if fld w 3 8 = 0 ∧ fld w 22 5 = 0 then
        .ok (.wwr (bits w 17 5) (bits w 0 3))
      else .error .mustBeZero
  | 27 =>
      if fld w 5 6 = 0 ∧ fld w 17 10 = 0 then
        .ok (.xsw (bits w 0 5))
      else .error .mustBeZero
  | 28 =>
      if fld w 6 5 = 0 ∧ fld w 22 5 = 0 then
        .ok (.carve (bits w 17 5) (bits w 0 6))
      else .error .mustBeZero
  | 29 =>
      if fld w 17 10 = 0 then
        .ok (.rlabel (bits w 0 11))
      else .error .mustBeZero
  | 30 =>
      if fld w 2 9 = 0 ∧ fld w 17 5 = 0 then
        .ok (.pcoord (bits w 22 5) (bits w 0 2))
      else .error .mustBeZero
  | 31 =>
      if fld w 0 11 = 0 ∧ fld w 17 5 = 0 then
        .ok (.pself (bits w 22 5))
      else .error .mustBeZero
  | _ => .error .unassigned

/-- The SYS ruler (R92, R94). -/
def decodeSYS (w : Nat) : Except DecodeError Instr :=
  match fld w 12 5 with
  | 0 =>
      if fld w 17 5 = 0 then
        .ok (.srd (bits w 22 5) (bits w 0 12))
      else .error .mustBeZero
  | 1 =>
      if fld w 22 5 = 0 then
        .ok (.swr (bits w 17 5) (bits w 0 12))
      else .error .mustBeZero
  | 2 =>
      if fld w 17 10 = 0 then
        .ok (.trap (bits w 0 12))
      else .error .mustBeZero
  | 3 =>
      if fld w 0 12 = 0 ∧ fld w 17 10 = 0 then
        .ok (.rett)
      else .error .mustBeZero
  | 4 =>
      if fld w 0 12 = 0 ∧ fld w 17 10 = 0 then
        .ok (.halt)
      else .error .mustBeZero
  | 5 =>
      if fld w 17 10 = 0 then
        .ok (.pace (bits w 0 12))
      else .error .mustBeZero
  | 6 =>
      if fld w 17 10 = 0 then
        .ok (.bkpt (bits w 0 12))
      else .error .mustBeZero
  | 7 =>
      if fld w 22 5 = 0 then
        .ok (.chk (bits w 17 5) (bits w 0 12))
      else .error .mustBeZero
  | 8 =>
      if fld w 8 4 = 0 ∧ fld w 17 10 = 0 then
        .ok (.bank (bits w 6 2) (bits w 0 6))
      else .error .mustBeZero
  | _ => .error .unassigned

/-- The TT ruler (R95). -/
def decodeTT (w : Nat) : Except DecodeError Instr :=
  match fld w 24 4 with
  | 0 => .ok (.tadd (bits w 16 8) (bits w 8 8) (bits w 0 8))
  | 1 => .ok (.tsub (bits w 16 8) (bits w 8 8) (bits w 0 8))
  | 2 => .ok (.tmul (bits w 16 8) (bits w 8 8) (bits w 0 8))
  | 3 => .ok (.tfma (bits w 16 8) (bits w 8 8) (bits w 0 8))
  | 4 => .ok (.tmax (bits w 16 8) (bits w 8 8) (bits w 0 8))
  | 5 => .ok (.tmin (bits w 16 8) (bits w 8 8) (bits w 0 8))
  | 6 => .ok (.tclt (bits w 16 8) (bits w 8 8) (bits w 0 8))
  | 7 => .ok (.tceq (bits w 16 8) (bits w 8 8) (bits w 0 8))
  | 8 => .ok (.tsel (bits w 16 8) (bits w 8 8) (bits w 0 8))
  | 9 => .ok (.tsrnd (bits w 16 8) (bits w 8 8) (bits w 0 8))
  | _ => .error .unassigned

/-- The TU ruler (R96). -/
def decodeTU (w : Nat) : Except DecodeError Instr :=
  match fld w 21 5 with
  | 0 =>
      if fld w 0 5 = 0 then
        .ok (.tmov (bits w 13 8) (bits w 5 8))
      else .error .mustBeZero
  | 1 =>
      if fld w 0 5 = 0 then
        .ok (.tneg (bits w 13 8) (bits w 5 8))
      else .error .mustBeZero
  | 2 =>
      if fld w 0 5 = 0 then
        .ok (.tabs (bits w 13 8) (bits w 5 8))
      else .error .mustBeZero
  | 3 =>
      if fld w 0 5 = 0 then
        .ok (.texp2 (bits w 13 8) (bits w 5 8))
      else .error .mustBeZero
  | 4 =>
      if fld w 0 5 = 0 then
        .ok (.tlog2 (bits w 13 8) (bits w 5 8))
      else .error .mustBeZero
  | 5 =>
      if fld w 0 5 = 0 then
        .ok (.trcp (bits w 13 8) (bits w 5 8))
      else .error .mustBeZero
  | 6 =>
      if fld w 0 5 = 0 then
        .ok (.trsq (bits w 13 8) (bits w 5 8))
      else .error .mustBeZero
  | 7 =>
      if fld w 0 5 = 0 then
        .ok (.tsqrt (bits w 13 8) (bits w 5 8))
      else .error .mustBeZero
  | 8 =>
      if fld w 0 5 = 0 then
        .ok (.tsig (bits w 13 8) (bits w 5 8))
      else .error .mustBeZero
  | 9 =>
      if fld w 0 5 = 0 then
        .ok (.ttanh (bits w 13 8) (bits w 5 8))
      else .error .mustBeZero
  | 10 =>
      if fld w 0 5 = 0 then
        .ok (.tsilu (bits w 13 8) (bits w 5 8))
      else .error .mustBeZero
  | 11 =>
      if fld w 0 5 = 0 then
        .ok (.tgelu (bits w 13 8) (bits w 5 8))
      else .error .mustBeZero
  | 12 => .ok (.tscal (bits w 13 8) (bits w 5 8) (bits w 0 5))
  | 13 => .ok (.tadds (bits w 13 8) (bits w 5 8) (bits w 0 5))
  | 14 =>
      if fld w 0 5 = 0 then
        .ok (.trsum (bits w 13 8) (bits w 5 8))
      else .error .mustBeZero
  | 15 =>
      if fld w 0 5 = 0 then
        .ok (.trmax (bits w 13 8) (bits w 5 8))
      else .error .mustBeZero
  | 16 =>
      if fld w 0 5 = 0 then
        .ok (.tcsum (bits w 13 8) (bits w 5 8))
      else .error .mustBeZero
  | 17 =>
      if fld w 0 5 = 0 then
        .ok (.tcmax (bits w 13 8) (bits w 5 8))
      else .error .mustBeZero
  | 18 => .ok (.trowx (bits w 13 8) (bits w 5 8) (bits w 0 5))
  | 19 => .ok (.trowi (bits w 13 8) (bits w 5 8) (bits w 0 5))
  | 20 =>
      if fld w 5 8 = 0 then
        .ok (.tfill (bits w 13 8) (bits w 0 5))
      else .error .mustBeZero
  | 21 =>
      if fld w 0 13 = 0 then
        .ok (.tiota (bits w 13 8))
      else .error .mustBeZero
  | 22 => .ok (.tclamp (bits w 13 8) (bits w 5 8) (bits w 0 5))
  | _ => .error .unassigned

/-- The TM ruler (R97). -/
def decodeTM (w : Nat) : Except DecodeError Instr :=
  match fld w 23 3 with
  | 0 =>
      if fld w 0 6 = 0 then
        .ok (.tmma (bits w 22 1) (bits w 14 8) (bits w 6 8))
      else .error .mustBeZero
  | 1 =>
      if fld w 0 6 = 0 then
        .ok (.tmmaz (bits w 22 1) (bits w 14 8) (bits w 6 8))
      else .error .mustBeZero
  | 2 =>
      if fld w 6 8 = 0 then
        .ok (.tdrain (bits w 22 1) (bits w 14 8) (bits w 5 1) (bits w 4 1) (bits w 2 2) (bits w 0 2))
      else .error .mustBeZero
  | 3 =>
      if fld w 1 3 = 0 ∧ fld w 5 1 = 0 ∧ fld w 11 3 = 0 then
        .ok (.tdrainm (bits w 22 1) (bits w 14 8) (bits w 6 5) (bits w 4 1) (bits w 0 1))
      else .error .mustBeZero
  | 4 =>
      if fld w 0 22 = 0 then
        .ok (.taclr (bits w 22 1))
      else .error .mustBeZero
  | _ => .error .unassigned

/-- The TC ruler (R98). -/
def decodeTC (w : Nat) : Except DecodeError Instr :=
  match fld w 22 4 with
  | 0 => .ok (.tcvt (bits w 14 8) (bits w 6 8) (bits w 4 2) (bits w 3 1) (bits w 0 3))
  | 1 =>
      if fld w 1 1 = 1 ∧ fld w 2 4 = 0 then
        .ok (.tqnt (bits w 14 8) (bits w 6 8) (bits w 0 1))
      else .error .mustBeZero
  | 2 =>
      if fld w 3 1 = 0 then
        .ok (.tdqnt (bits w 14 8) (bits w 6 8) (bits w 4 2) (bits w 0 3))
      else .error .mustBeZero
  | 3 =>
      if fld w 0 6 = 0 then
        .ok (.ttrl (bits w 14 8) (bits w 6 8))
      else .error .mustBeZero
  | _ => .error .unassigned

/-- The TD ruler (R99). -/
def decodeTD (w : Nat) : Except DecodeError Instr :=
  match fld w 21 5 with
  | 0 => .ok (.tdesc (bits w 13 8) (bits w 8 5) (bits w 3 5) (bits w 0 3))
  | 1 =>
      if fld w 0 13 = 0 then
        .ok (.tempty (bits w 13 8))
      else .error .mustBeZero
  | 2 =>
      if fld w 0 13 = 0 then
        .ok (.tfull (bits w 13 8))
      else .error .mustBeZero
  | 3 =>
      if fld w 0 8 = 0 then
        .ok (.tdrd (bits w 13 8) (bits w 8 5))
      else .error .mustBeZero
  | 4 =>
      if fld w 0 13 = 0 then
        .ok (.trand (bits w 13 8))
      else .error .mustBeZero
  | 5 =>
      if fld w 0 8 = 0 ∧ fld w 13 8 = 0 then
        .ok (.tseed (bits w 8 5))
      else .error .mustBeZero
  | 6 =>
      if fld w 0 8 = 0 then
        .ok (.tstats (bits w 13 8) (bits w 8 5))
      else .error .mustBeZero
  | 7 =>
      if fld w 0 3 = 0 then
        .ok (.tget (bits w 13 8) (bits w 8 5) (bits w 3 5))
      else .error .mustBeZero
  | 8 =>
      if fld w 0 3 = 0 then
        .ok (.tset (bits w 13 8) (bits w 8 5) (bits w 3 5))
      else .error .mustBeZero
  | _ => .error .unassigned

/-- The AR ruler (R100). -/
def decodeAR (w : Nat) : Except DecodeError Instr :=
  match fld w 24 4 with
  | 0 =>
      if fld w 0 2 = 0 ∧ fld w 4 4 = 0 ∧ fld w 12 4 = 0 then
        .ok (.afwd (bits w 19 5) (bits w 16 3) (bits w 11 1) (bits w 8 3) (bits w 3 1) (bits w 2 1))
      else .error .mustBeZero
  | 1 =>
      if fld w 0 2 = 0 ∧ fld w 4 4 = 0 ∧ fld w 12 4 = 0 then
        .ok (.abwd (bits w 19 5) (bits w 16 3) (bits w 11 1) (bits w 8 3) (bits w 3 1) (bits w 2 1))
      else .error .mustBeZero
  | 2 =>
      if fld w 0 2 = 0 ∧ fld w 4 4 = 0 ∧ fld w 12 4 = 0 then
        .ok (.aupd (bits w 19 5) (bits w 16 3) (bits w 11 1) (bits w 8 3) (bits w 3 1) (bits w 2 1))
      else .error .mustBeZero
  | 3 =>
      if fld w 0 2 = 0 ∧ fld w 3 16 = 0 then
        .ok (.axfr (bits w 19 5) (bits w 2 1))
      else .error .mustBeZero
  | 4 =>
      if fld w 0 2 = 0 ∧ fld w 4 4 = 0 ∧ fld w 11 8 = 0 then
        .ok (.acal (bits w 19 5) (bits w 8 3) (bits w 3 1) (bits w 2 1))
      else .error .mustBeZero
  | 5 =>
      if fld w 0 2 = 0 ∧ fld w 4 4 = 0 ∧ fld w 11 8 = 0 then
        .ok (.aasy (bits w 19 5) (bits w 8 3) (bits w 3 1) (bits w 2 1))
      else .error .mustBeZero
  | 6 =>
      if fld w 0 2 = 0 ∧ fld w 3 8 = 0 ∧ fld w 12 4 = 0 then
        .ok (.aprog (bits w 19 5) (bits w 16 3) (bits w 11 1) (bits w 2 1))
      else .error .mustBeZero
  | 7 =>
      if fld w 0 2 = 0 ∧ fld w 3 16 = 0 then
        .ok (.argrw (bits w 19 5) (bits w 2 1))
      else .error .mustBeZero
  | 8 =>
      if fld w 0 2 = 0 ∧ fld w 3 8 = 0 then
        .ok (.amask (bits w 19 5) (bits w 11 8) (bits w 2 1))
      else .error .mustBeZero
  | 9 =>
      if fld w 0 2 = 0 ∧ fld w 3 16 = 0 then
        .ok (.aseed (bits w 19 5) (bits w 2 1))
      else .error .mustBeZero
  | 10 =>
      if fld w 0 2 = 0 ∧ fld w 4 2 = 0 ∧ fld w 11 8 = 0 then
        .ok (.astat (bits w 19 5) (bits w 6 5) (bits w 3 1) (bits w 2 1))
      else .error .mustBeZero
  | 11 =>
      if fld w 0 2 = 0 ∧ fld w 3 16 = 0 then
        .ok (.azero (bits w 19 5) (bits w 2 1))
      else .error .mustBeZero
  | 15 =>
    if fld w 13 1 = 0 then
      if fld w 0 13 = 0 then
        .ok (.asetWrite (bits w 19 5) (bits w 14 5))
      else .error .mustBeZero
    else
      if fld w 0 13 = 0 then
        .ok (.asetRead (bits w 19 5) (bits w 14 5))
      else .error .mustBeZero
  | _ => .error .unassigned

/-- The HO ruler (R101). -/
def decodeHO (w : Nat) : Except DecodeError Instr :=
  match fld w 25 3 with
  | 0 =>
      if fld w 18 2 = 0 then
        .ok (.hld (bits w 20 5) (bits w 10 8) (bits w 5 5) (bits w 0 5))
      else .error .mustBeZero
  | 1 => .ok (.hst (bits w 20 5) (bits w 18 2) (bits w 10 8) (bits w 5 5) (bits w 0 5))
  | 2 => .ok (.hsta (bits w 20 5) (bits w 18 2) (bits w 10 8) (bits w 5 5) (bits w 0 5))
  | 3 =>
      if fld w 18 2 = 0 then
        .ok (.hgth (bits w 20 5) (bits w 10 8) (bits w 5 5) (bits w 0 5))
      else .error .mustBeZero
  | 4 =>
      if fld w 18 1 = 0 then
        .ok (.hsct (bits w 20 5) (bits w 19 1) (bits w 10 8) (bits w 5 5) (bits w 0 5))
      else .error .mustBeZero
  | 5 =>
      if fld w 18 7 = 0 then
        .ok (.hpf (bits w 10 8) (bits w 5 5) (bits w 0 5))
      else .error .mustBeZero
  | _ => .error .unassigned

/-- The EXT ruler (R102). -/
def decodeEXT (w : Nat) : Except DecodeError Instr :=
  match fld w 24 4 with
  | 0 =>
      if fld w 0 3 = 0 then
        .ok (.hcpy (bits w 16 8) (bits w 8 8) (bits w 3 5))
      else .error .mustBeZero
  | 1 =>
      if fld w 0 3 = 0 then
        .ok (.hsend (bits w 16 8) (bits w 8 8) (bits w 3 5))
      else .error .mustBeZero
  | 2 =>
      if fld w 0 3 = 0 ∧ fld w 8 8 = 0 then
        .ok (.hfill (bits w 16 8) (bits w 3 5))
      else .error .mustBeZero
  | _ => .error .unassigned

/-- The class of a 32-bit word by P = W[30:28] and its selector (R83). -/
def decodeClass (w : Nat) : Except DecodeError Instr :=
  match fld w 28 3 with
  | 0 =>
    match fld w 26 2 with
    | 0 => decodeSR w
    | 1 => decodeSI w
    | 2 => decodeMV w
    | _ => decodeBR w
  | 1 => if fld w 27 1 = 0 then decodeMEM w else decodeAT w
  | 2 => if fld w 27 1 = 0 then decodeSYNC w else decodeSYS w
  | 3 => decodeTT w
  | 4 =>
    match fld w 26 2 with
    | 0 => decodeTU w
    | 1 => decodeTM w
    | 2 => decodeTC w
    | _ => decodeTD w
  | 5 => decodeAR w
  | 6 => decodeHO w
  | _ => if fld w 24 4 = 15 then .error .headerInBody else decodeEXT w

/-- An instruction that passes the remaining checks of R84, R85 and R93 to R101. -/
def checked (i : Instr) : Except DecodeError Instr :=
  match i.check with
  | none => .ok i
  | some e => .error (.illFormed e)

/-- A 32-bit parcel, W[31] = 1. -/
def decode32 (w : Nat) : Except DecodeError Instr :=
  match decodeClass w with
  | .ok i => checked i
  | .error e => .error e

/-- A 16-bit parcel, bit 15 = 0. -/
def decode16 (w : Nat) : Except DecodeError Instr :=
  match decodeH16 w with
  | .ok i => checked i
  | .error e => .error e

/-- Two bytes as a little-endian halfword (R77). -/
def half (b0 b1 : Byte) : Nat := b0.toNat + 256 * b1.toNat

/-- The parcel at the head of a list of bytes, and the bytes after it (R77, R82). -/
def decode : List Byte → Except DecodeError (Instr × List Byte)
  | b0 :: b1 :: rest =>
    if half b0 b1 < 32768 then
      match decode16 (half b0 b1) with
      | .ok i => .ok (i, rest)
      | .error e => .error e
    else
      match rest with
      | b2 :: b3 :: rest2 =>
        match decode32 (65536 * half b0 b1 + half b2 b3) with
        | .ok i => .ok (i, rest2)
        | .error e => .error e
      | _ => .error .truncated
  | _ => .error .truncated

/-- The width and the bits of an instruction (R82 to R102); an event has none. The width is 16 or 32. -/
def encode : Instr → Option (Nat × Nat)
  | .nop => some (16, 0x0000)
  | .mov16 d a => some (16, 0x0400 + d.toNat * 32 + a.toNat)
  | .add16 d a => some (16, 0x0800 + d.toNat * 32 + a.toNat)
  | .sub16 d a => some (16, 0x0C00 + d.toNat * 32 + a.toNat)
  | .and16 d a => some (16, 0x1000 + d.toNat * 32 + a.toNat)
  | .or16 d a => some (16, 0x1400 + d.toNat * 32 + a.toNat)
  | .xor16 d a => some (16, 0x1800 + d.toNat * 32 + a.toNat)
  | .addi16 d i => some (16, 0x1C00 + d.toNat * 32 + i.toNat)
  | .ldi16 d i => some (16, 0x2000 + d.toNat * 32 + i.toNat)
  | .shli16 d i => some (16, 0x2400 + d.toNat * 32 + i.toNat)
  | .shri16 d i => some (16, 0x2800 + d.toNat * 32 + i.toNat)
  | .cadd16 d a => some (16, 0x2C00 + d.toNat * 32 + a.toNat)
  | .epost16 n => some (16, 0x3000 + n.toNat)
  | .ewait16 n => some (16, 0x3400 + n.toNat)
  | .tempty16 t => some (16, 0x3800 + t.toNat)
  | .pend16 => some (16, 0x3C00)
  | .add d a b => some (32, 0x80000000 + d.toNat * 2097152 + a.toNat * 65536 + b.toNat * 2048)
  | .sub d a b => some (32, 0x80000001 + d.toNat * 2097152 + a.toNat * 65536 + b.toNat * 2048)
  | .mul d a b => some (32, 0x80000002 + d.toNat * 2097152 + a.toNat * 65536 + b.toNat * 2048)
  | .mulhs d a b => some (32, 0x80000003 + d.toNat * 2097152 + a.toNat * 65536 + b.toNat * 2048)
  | .mulhu d a b => some (32, 0x80000004 + d.toNat * 2097152 + a.toNat * 65536 + b.toNat * 2048)
  | .div d a b => some (32, 0x80000005 + d.toNat * 2097152 + a.toNat * 65536 + b.toNat * 2048)
  | .divu d a b => some (32, 0x80000006 + d.toNat * 2097152 + a.toNat * 65536 + b.toNat * 2048)
  | .rem d a b => some (32, 0x80000007 + d.toNat * 2097152 + a.toNat * 65536 + b.toNat * 2048)
  | .remu d a b => some (32, 0x80000008 + d.toNat * 2097152 + a.toNat * 65536 + b.toNat * 2048)
  | .and d a b => some (32, 0x80000009 + d.toNat * 2097152 + a.toNat * 65536 + b.toNat * 2048)
  | .or d a b => some (32, 0x8000000A + d.toNat * 2097152 + a.toNat * 65536 + b.toNat * 2048)
  | .xor d a b => some (32, 0x8000000B + d.toNat * 2097152 + a.toNat * 65536 + b.toNat * 2048)
  | .andn d a b => some (32, 0x8000000C + d.toNat * 2097152 + a.toNat * 65536 + b.toNat * 2048)
  | .shl d a b => some (32, 0x8000000D + d.toNat * 2097152 + a.toNat * 65536 + b.toNat * 2048)
  | .shr d a b => some (32, 0x8000000E + d.toNat * 2097152 + a.toNat * 65536 + b.toNat * 2048)
  | .sar d a b => some (32, 0x8000000F + d.toNat * 2097152 + a.toNat * 65536 + b.toNat * 2048)
  | .min d a b => some (32, 0x80000010 + d.toNat * 2097152 + a.toNat * 65536 + b.toNat * 2048)
  | .max d a b => some (32, 0x80000011 + d.toNat * 2097152 + a.toNat * 65536 + b.toNat * 2048)
  | .minu d a b => some (32, 0x80000012 + d.toNat * 2097152 + a.toNat * 65536 + b.toNat * 2048)
  | .maxu d a b => some (32, 0x80000013 + d.toNat * 2097152 + a.toNat * 65536 + b.toNat * 2048)
  | .slt d a b => some (32, 0x80000014 + d.toNat * 2097152 + a.toNat * 65536 + b.toNat * 2048)
  | .sltu d a b => some (32, 0x80000015 + d.toNat * 2097152 + a.toNat * 65536 + b.toNat * 2048)
  | .seq d a b => some (32, 0x80000016 + d.toNat * 2097152 + a.toNat * 65536 + b.toNat * 2048)
  | .sne d a b => some (32, 0x80000017 + d.toNat * 2097152 + a.toNat * 65536 + b.toNat * 2048)
  | .sel d a b => some (32, 0x80000018 + d.toNat * 2097152 + a.toNat * 65536 + b.toNat * 2048)
  | .clz d a => some (32, 0x80000019 + d.toNat * 2097152 + a.toNat * 65536)
  | .popc d a => some (32, 0x8000001A + d.toNat * 2097152 + a.toNat * 65536)
  | .ctz d a => some (32, 0x8000001B + d.toNat * 2097152 + a.toNat * 65536)
  | .cadd d a b => some (32, 0x8000001C + d.toNat * 2097152 + a.toNat * 65536 + b.toNat * 2048)
  | .addi d a i => some (32, 0x84000000 + d.toNat * 2097152 + a.toNat * 65536 + i.toNat)
  | .andi d a i => some (32, 0x84001000 + d.toNat * 2097152 + a.toNat * 65536 + i.toNat)
  | .ori d a i => some (32, 0x84002000 + d.toNat * 2097152 + a.toNat * 65536 + i.toNat)
  | .xori d a i => some (32, 0x84003000 + d.toNat * 2097152 + a.toNat * 65536 + i.toNat)
  | .shli d a n => some (32, 0x84004000 + d.toNat * 2097152 + a.toNat * 65536 + n.toNat)
  | .shri d a n => some (32, 0x84005000 + d.toNat * 2097152 + a.toNat * 65536 + n.toNat)
  | .sari d a n => some (32, 0x84006000 + d.toNat * 2097152 + a.toNat * 65536 + n.toNat)
  | .slti d a i => some (32, 0x84007000 + d.toNat * 2097152 + a.toNat * 65536 + i.toNat)
  | .sltui d a i => some (32, 0x84008000 + d.toNat * 2097152 + a.toNat * 65536 + i.toNat)
  | .seqi d a i => some (32, 0x84009000 + d.toNat * 2097152 + a.toNat * 65536 + i.toNat)
  | .muli d a i => some (32, 0x8400A000 + d.toNat * 2097152 + a.toNat * 65536 + i.toNat)
  | .ldi d h i => some (32, 0x88000000 + d.toNat * 2097152 + h.toNat * 524288 + i.toNat)
  | .insi d h i => some (32, 0x88010000 + d.toNat * 2097152 + h.toNat * 524288 + i.toNat)
  | .ldin d h i => some (32, 0x88020000 + d.toNat * 2097152 + h.toNat * 524288 + i.toNat)
  | .beq a b o => some (32, 0x8C000000 + a.toNat * 2097152 + b.toNat * 65536 + o.toNat)
  | .bne a b o => some (32, 0x8C001000 + a.toNat * 2097152 + b.toNat * 65536 + o.toNat)
  | .blt a b o => some (32, 0x8C002000 + a.toNat * 2097152 + b.toNat * 65536 + o.toNat)
  | .bge a b o => some (32, 0x8C003000 + a.toNat * 2097152 + b.toNat * 65536 + o.toNat)
  | .bltu a b o => some (32, 0x8C004000 + a.toNat * 2097152 + b.toNat * 65536 + o.toNat)
  | .bgeu a b o => some (32, 0x8C005000 + a.toNat * 2097152 + b.toNat * 65536 + o.toNat)
  | .jmp o => some (32, 0x8C006000 + o.toNat)
  | .call o => some (32, 0x8C007000 + o.toNat)
  | .ret => some (32, 0x8C008000)
  | .jmpr a => some (32, 0x8C009000 + a.toNat * 2097152)
  | .callr a => some (32, 0x8C00A000 + a.toNat * 2097152)
  | .ldb d c l r => some (32, 0x90000000 + d.toNat * 4194304 + c.toNat * 131072 + l.toNat * 512 + r.toNat * 8)
  | .ldbs d c l r => some (32, 0x90000020 + d.toNat * 4194304 + c.toNat * 131072 + l.toNat * 512 + r.toNat * 8)
  | .ldh d c l r => some (32, 0x90000040 + d.toNat * 4194304 + c.toNat * 131072 + l.toNat * 512 + r.toNat * 8)
  | .ldhs d c l r => some (32, 0x90000060 + d.toNat * 4194304 + c.toNat * 131072 + l.toNat * 512 + r.toNat * 8)
  | .ldw d c l r => some (32, 0x90000080 + d.toNat * 4194304 + c.toNat * 131072 + l.toNat * 512 + r.toNat * 8)
  | .ldws d c l r => some (32, 0x900000A0 + d.toNat * 4194304 + c.toNat * 131072 + l.toNat * 512 + r.toNat * 8)
  | .ldd d c l r => some (32, 0x900000C0 + d.toNat * 4194304 + c.toNat * 131072 + l.toNat * 512 + r.toNat * 8)
  | .ldf d c l r => some (32, 0x900000E0 + d.toNat * 4194304 + c.toNat * 131072 + l.toNat * 512 + r.toNat * 8)
  | .stb d c l r => some (32, 0x90000100 + d.toNat * 4194304 + c.toNat * 131072 + l.toNat * 512 + r.toNat * 8)
  | .sth d c l r => some (32, 0x90000120 + d.toNat * 4194304 + c.toNat * 131072 + l.toNat * 512 + r.toNat * 8)
  | .stw d c l r => some (32, 0x90000140 + d.toNat * 4194304 + c.toNat * 131072 + l.toNat * 512 + r.toNat * 8)
  | .std d c l r => some (32, 0x90000160 + d.toNat * 4194304 + c.toNat * 131072 + l.toNat * 512 + r.toNat * 8)
  | .ste d c l r => some (32, 0x90000180 + d.toNat * 4194304 + c.toNat * 131072 + l.toNat * 512 + r.toNat * 8)
  | .ldfe d c l r => some (32, 0x900001A0 + d.toNat * 4194304 + c.toNat * 131072 + l.toNat * 512 + r.toNat * 8)
  | .stf d c l r => some (32, 0x900001C0 + d.toNat * 4194304 + c.toNat * 131072 + l.toNat * 512 + r.toNat * 8)
  | .sete c l r => some (32, 0x900001E0 + c.toNat * 131072 + l.toNat * 512 + r.toNat * 8)
  | .atadd d c l r x => some (32, 0x98000000 + d.toNat * 4194304 + c.toNat * 131072 + l.toNat * 512 + r.toNat * 4 + x.toNat * 2)
  | .ataddw d c l r x => some (32, 0x98000010 + d.toNat * 4194304 + c.toNat * 131072 + l.toNat * 512 + r.toNat * 4 + x.toNat * 2)
  | .atfadd d c l r x => some (32, 0x98000020 + d.toNat * 4194304 + c.toNat * 131072 + l.toNat * 512 + r.toNat * 4 + x.toNat * 2)
  | .atmin d c l r x => some (32, 0x98000030 + d.toNat * 4194304 + c.toNat * 131072 + l.toNat * 512 + r.toNat * 4 + x.toNat * 2)
  | .atmax d c l r x => some (32, 0x98000040 + d.toNat * 4194304 + c.toNat * 131072 + l.toNat * 512 + r.toNat * 4 + x.toNat * 2)
  | .atminu d c l r x => some (32, 0x98000050 + d.toNat * 4194304 + c.toNat * 131072 + l.toNat * 512 + r.toNat * 4 + x.toNat * 2)
  | .atmaxu d c l r x => some (32, 0x98000060 + d.toNat * 4194304 + c.toNat * 131072 + l.toNat * 512 + r.toNat * 4 + x.toNat * 2)
  | .atand d c l r x => some (32, 0x98000070 + d.toNat * 4194304 + c.toNat * 131072 + l.toNat * 512 + r.toNat * 4 + x.toNat * 2)
  | .ator d c l r x => some (32, 0x98000080 + d.toNat * 4194304 + c.toNat * 131072 + l.toNat * 512 + r.toNat * 4 + x.toNat * 2)
  | .atxor d c l r x => some (32, 0x98000090 + d.toNat * 4194304 + c.toNat * 131072 + l.toNat * 512 + r.toNat * 4 + x.toNat * 2)
  | .atxchg d c l r x => some (32, 0x980000A0 + d.toNat * 4194304 + c.toNat * 131072 + l.toNat * 512 + r.toNat * 4 + x.toNat * 2)
  | .atcas d c l r => some (32, 0x980000B2 + d.toNat * 4194304 + c.toNat * 131072 + l.toNat * 512 + r.toNat * 4)
  | .atfmin d c l r x => some (32, 0x980000C0 + d.toNat * 4194304 + c.toNat * 131072 + l.toNat * 512 + r.toNat * 4 + x.toNat * 2)
  | .atfmax d c l r x => some (32, 0x980000D0 + d.toNat * 4194304 + c.toNat * 131072 + l.toNat * 512 + r.toNat * 4 + x.toNat * 2)
  | .epost n => some (32, 0xA0000000 + n.toNat)
  | .ewait n => some (32, 0xA0000800 + n.toNat)
  | .ewaitk n => some (32, 0xA0001000 + n.toNat)
  | .waitc l s c e => some (32, 0xA0001800 + l.toNat * 512 + s.toNat * 128 + c.toNat * 16 + e.toNat)
  | .join s m => some (32, 0xA0002000 + s.toNat * 16 + m.toNat)
  | .phreg a r => some (32, 0xA0002800 + a.toNat * 131072 + r.toNat)
  | .phsig a => some (32, 0xA0003000 + a.toNat * 131072)
  | .phwait d a => some (32, 0xA0003800 + d.toNat * 4194304 + a.toNat * 131072)
  | .phnext d a => some (32, 0xA0004000 + d.toNat * 4194304 + a.toNat * 131072)
  | .phdrop a => some (32, 0xA0004800 + a.toNat * 131072)
  | .phrole a r => some (32, 0xA0005000 + a.toNat * 131072 + r.toNat)
  | .phexp d a => some (32, 0xA0005800 + d.toNat * 4194304 + a.toNat * 131072)
  | .qput d a => some (32, 0xA0006000 + d.toNat * 4194304 + a.toNat * 131072)
  | .qres d a => some (32, 0xA0006800 + d.toNat * 4194304 + a.toNat * 131072)
  | .qpub d a => some (32, 0xA0007000 + d.toNat * 4194304 + a.toNat * 131072)
  | .qtake d a => some (32, 0xA0007800 + d.toNat * 4194304 + a.toNat * 131072)
  | .qtry d a => some (32, 0xA0008000 + d.toNat * 4194304 + a.toNat * 131072)
  | .rnext d => some (32, 0xA0008800 + d.toNat * 4194304)
  | .lpatch d a f => some (32, 0xA0009000 + d.toNat * 4194304 + a.toNat * 131072 + f.toNat)
  | .larm a => some (32, 0xA0009800 + a.toNat * 131072)
  | .lquery d a => some (32, 0xA000A000 + d.toNat * 4194304 + a.toNat * 131072)
  | .pend => some (32, 0xA000A800)
  | .lampq => some (32, 0xA000B000)
  | .lamprel => some (32, 0xA000B800)
  | .lampst d => some (32, 0xA000C000 + d.toNat * 4194304)
  | .wrd d w => some (32, 0xA000C800 + d.toNat * 4194304 + w.toNat)
  | .wwr a w => some (32, 0xA000D000 + a.toNat * 131072 + w.toNat)
  | .xsw t => some (32, 0xA000D800 + t.toNat)
  | .carve a n => some (32, 0xA000E000 + a.toNat * 131072 + n.toNat)
  | .rlabel o => some (32, 0xA000E800 + o.toNat)
  | .pcoord d k => some (32, 0xA000F000 + d.toNat * 4194304 + k.toNat)
  | .pself d => some (32, 0xA000F800 + d.toNat * 4194304)
  | .srd d n => some (32, 0xA8000000 + d.toNat * 4194304 + n.toNat)
  | .swr a n => some (32, 0xA8001000 + a.toNat * 131072 + n.toNat)
  | .trap n => some (32, 0xA8002000 + n.toNat)
  | .rett => some (32, 0xA8003000)
  | .halt => some (32, 0xA8004000)
  | .pace n => some (32, 0xA8005000 + n.toNat)
  | .bkpt n => some (32, 0xA8006000 + n.toNat)
  | .chk a n => some (32, 0xA8007000 + a.toNat * 131072 + n.toNat)
  | .bank m b => some (32, 0xA8008000 + m.toNat * 64 + b.toNat)
  | .tadd d a b => some (32, 0xB0000000 + d.toNat * 65536 + a.toNat * 256 + b.toNat)
  | .tsub d a b => some (32, 0xB1000000 + d.toNat * 65536 + a.toNat * 256 + b.toNat)
  | .tmul d a b => some (32, 0xB2000000 + d.toNat * 65536 + a.toNat * 256 + b.toNat)
  | .tfma d a b => some (32, 0xB3000000 + d.toNat * 65536 + a.toNat * 256 + b.toNat)
  | .tmax d a b => some (32, 0xB4000000 + d.toNat * 65536 + a.toNat * 256 + b.toNat)
  | .tmin d a b => some (32, 0xB5000000 + d.toNat * 65536 + a.toNat * 256 + b.toNat)
  | .tclt d a b => some (32, 0xB6000000 + d.toNat * 65536 + a.toNat * 256 + b.toNat)
  | .tceq d a b => some (32, 0xB7000000 + d.toNat * 65536 + a.toNat * 256 + b.toNat)
  | .tsel d a b => some (32, 0xB8000000 + d.toNat * 65536 + a.toNat * 256 + b.toNat)
  | .tsrnd d a b => some (32, 0xB9000000 + d.toNat * 65536 + a.toNat * 256 + b.toNat)
  | .tmov d a => some (32, 0xC0000000 + d.toNat * 8192 + a.toNat * 32)
  | .tneg d a => some (32, 0xC0200000 + d.toNat * 8192 + a.toNat * 32)
  | .tabs d a => some (32, 0xC0400000 + d.toNat * 8192 + a.toNat * 32)
  | .texp2 d a => some (32, 0xC0600000 + d.toNat * 8192 + a.toNat * 32)
  | .tlog2 d a => some (32, 0xC0800000 + d.toNat * 8192 + a.toNat * 32)
  | .trcp d a => some (32, 0xC0A00000 + d.toNat * 8192 + a.toNat * 32)
  | .trsq d a => some (32, 0xC0C00000 + d.toNat * 8192 + a.toNat * 32)
  | .tsqrt d a => some (32, 0xC0E00000 + d.toNat * 8192 + a.toNat * 32)
  | .tsig d a => some (32, 0xC1000000 + d.toNat * 8192 + a.toNat * 32)
  | .ttanh d a => some (32, 0xC1200000 + d.toNat * 8192 + a.toNat * 32)
  | .tsilu d a => some (32, 0xC1400000 + d.toNat * 8192 + a.toNat * 32)
  | .tgelu d a => some (32, 0xC1600000 + d.toNat * 8192 + a.toNat * 32)
  | .tscal d a s => some (32, 0xC1800000 + d.toNat * 8192 + a.toNat * 32 + s.toNat)
  | .tadds d a s => some (32, 0xC1A00000 + d.toNat * 8192 + a.toNat * 32 + s.toNat)
  | .trsum d a => some (32, 0xC1C00000 + d.toNat * 8192 + a.toNat * 32)
  | .trmax d a => some (32, 0xC1E00000 + d.toNat * 8192 + a.toNat * 32)
  | .tcsum d a => some (32, 0xC2000000 + d.toNat * 8192 + a.toNat * 32)
  | .tcmax d a => some (32, 0xC2200000 + d.toNat * 8192 + a.toNat * 32)
  | .trowx d a s => some (32, 0xC2400000 + d.toNat * 8192 + a.toNat * 32 + s.toNat)
  | .trowi d a s => some (32, 0xC2600000 + d.toNat * 8192 + a.toNat * 32 + s.toNat)
  | .tfill d s => some (32, 0xC2800000 + d.toNat * 8192 + s.toNat)
  | .tiota d => some (32, 0xC2A00000 + d.toNat * 8192)
  | .tclamp d a s => some (32, 0xC2C00000 + d.toNat * 8192 + a.toNat * 32 + s.toNat)
  | .tmma m a b => some (32, 0xC4000000 + m.toNat * 4194304 + a.toNat * 16384 + b.toNat * 64)
  | .tmmaz m a b => some (32, 0xC4800000 + m.toNat * 4194304 + a.toNat * 16384 + b.toNat * 64)
  | .tdrain m d x c r f => some (32, 0xC5000000 + m.toNat * 4194304 + d.toNat * 16384 + x.toNat * 32 + c.toNat * 16 + r.toNat * 4 + f.toNat)
  | .tdrainm m l c k f => some (32, 0xC5800000 + m.toNat * 4194304 + l.toNat * 16384 + c.toNat * 64 + k.toNat * 16 + f.toNat)
  | .taclr m => some (32, 0xC6000000 + m.toNat * 4194304)
  | .tcvt d a r s t => some (32, 0xC8000000 + d.toNat * 16384 + a.toNat * 64 + r.toNat * 16 + s.toNat * 8 + t.toNat)
  | .tqnt d a t => some (32, 0xC8400002 + d.toNat * 16384 + a.toNat * 64 + t.toNat)
  | .tdqnt d a r t => some (32, 0xC8800000 + d.toNat * 16384 + a.toNat * 64 + r.toNat * 16 + t.toNat)
  | .ttrl d a => some (32, 0xC8C00000 + d.toNat * 16384 + a.toNat * 64)
  | .tdesc d a b i => some (32, 0xCC000000 + d.toNat * 8192 + a.toNat * 256 + b.toNat * 8 + i.toNat)
  | .tempty d => some (32, 0xCC200000 + d.toNat * 8192)
  | .tfull d => some (32, 0xCC400000 + d.toNat * 8192)
  | .tdrd d a => some (32, 0xCC600000 + d.toNat * 8192 + a.toNat * 256)
  | .trand d => some (32, 0xCC800000 + d.toNat * 8192)
  | .tseed a => some (32, 0xCCA00000 + a.toNat * 256)
  | .tstats d a => some (32, 0xCCC00000 + d.toNat * 8192 + a.toNat * 256)
  | .tget d a b => some (32, 0xCCE00000 + d.toNat * 8192 + a.toNat * 256 + b.toNat * 8)
  | .tset d a b => some (32, 0xCD000000 + d.toNat * 8192 + a.toNat * 256 + b.toNat * 8)
  | .afwd p x k y j i => some (32, 0xD0000000 + p.toNat * 524288 + x.toNat * 65536 + k.toNat * 2048 + y.toNat * 256 + j.toNat * 8 + i.toNat * 4)
  | .abwd p x k y j i => some (32, 0xD1000000 + p.toNat * 524288 + x.toNat * 65536 + k.toNat * 2048 + y.toNat * 256 + j.toNat * 8 + i.toNat * 4)
  | .aupd p x k y j i => some (32, 0xD2000000 + p.toNat * 524288 + x.toNat * 65536 + k.toNat * 2048 + y.toNat * 256 + j.toNat * 8 + i.toNat * 4)
  | .axfr p i => some (32, 0xD3000000 + p.toNat * 524288 + i.toNat * 4)
  | .acal p y j i => some (32, 0xD4000000 + p.toNat * 524288 + y.toNat * 256 + j.toNat * 8 + i.toNat * 4)
  | .aasy p y j i => some (32, 0xD5000000 + p.toNat * 524288 + y.toNat * 256 + j.toNat * 8 + i.toNat * 4)
  | .aprog p x k i => some (32, 0xD6000000 + p.toNat * 524288 + x.toNat * 65536 + k.toNat * 2048 + i.toNat * 4)
  | .argrw p i => some (32, 0xD7000000 + p.toNat * 524288 + i.toNat * 4)
  | .amask p l i => some (32, 0xD8000000 + p.toNat * 524288 + l.toNat * 2048 + i.toNat * 4)
  | .aseed p i => some (32, 0xD9000000 + p.toNat * 524288 + i.toNat * 4)
  | .astat p y j i => some (32, 0xDA000000 + p.toNat * 524288 + y.toNat * 64 + j.toNat * 8 + i.toNat * 4)
  | .azero p i => some (32, 0xDB000000 + p.toNat * 524288 + i.toNat * 4)
  | .asetWrite p s => some (32, 0xDF000000 + p.toNat * 524288 + s.toNat * 16384)
  | .asetRead p s => some (32, 0xDF002000 + p.toNat * 524288 + s.toNat * 16384)
  | .hld t l c k => some (32, 0xE0000000 + t.toNat * 1048576 + l.toNat * 1024 + c.toNat * 32 + k.toNat)
  | .hst t v l c k => some (32, 0xE2000000 + t.toNat * 1048576 + v.toNat * 262144 + l.toNat * 1024 + c.toNat * 32 + k.toNat)
  | .hsta t v l c k => some (32, 0xE4000000 + t.toNat * 1048576 + v.toNat * 262144 + l.toNat * 1024 + c.toNat * 32 + k.toNat)
  | .hgth t l c k => some (32, 0xE6000000 + t.toNat * 1048576 + l.toNat * 1024 + c.toNat * 32 + k.toNat)
  | .hsct t v l c k => some (32, 0xE8000000 + t.toNat * 1048576 + v.toNat * 524288 + l.toNat * 1024 + c.toNat * 32 + k.toNat)
  | .hpf l c k => some (32, 0xEA000000 + l.toNat * 1024 + c.toNat * 32 + k.toNat)
  | .hcpy d s c => some (32, 0xF0000000 + d.toNat * 65536 + s.toNat * 256 + c.toNat * 8)
  | .hsend d s c => some (32, 0xF1000000 + d.toNat * 65536 + s.toNat * 256 + c.toNat * 8)
  | .hfill d c => some (32, 0xF2000000 + d.toNat * 65536 + c.toNat * 8)
  | .loadReturn .. | .storePerform .. | .atomicPerform .. | .fifoServe .. | .vectorClaim ..
  | .vectorComplete .. | .matrixStart .. | .matrixBlock .. | .matrixComplete .. | .arrayIssue ..
  | .arrayUnit .. | .arrayComplete .. | .xswPair .. | .xswComplete .. | .joinMeet .. | .phaseComplete ..
  | .bankSwitchDone .. | .hoistCopyStart .. | .hoistChunk .. | .hoistCopyComplete .. | .lampmaxExpiry ..
  | .sprintLimit .. | .cooldownEnd .. | .pavgUpdate .. | .tempSample .. | .railGap .. | .watchdogExpiry ..
  | .trapEntry .. | .haltComplete .. | .eccFreeze .. | .eccFreezeEnd .. | .uncorrectableError ..
  | .headframeRound .. | .pointStart .. | .pointEnd .. | .recordDone .. | .contextKill .. | .form ..
  | .dissolve .. | .preempt .. | .saveStopped .. | .saveComplete .. | .saveDeadline .. | .restore ..
  | .restoreComplete .. | .release .. | .build .. | .patch .. | .arm .. | .query .. | .free ..
  | .clusterBankCommand .. | .abort .. | .qresume .. | .qcfgWrite .. | .qbaseWrite .. | .phcfgWrite ..
  | .ordcfgWrite .. | .coreAccessWrite .. | .panelControlWrite .. | .weightScaleApply .. | .retire ..
  | .panelRemap .. | .poolWrite .. | .clpwrWrite .. | .lrctlWrite .. | .devnumWrite .. | .fqcfgWrite ..
  | .fqheadWrite .. | .invalidate .. | .invalidationDone .. | .translationWalk .. | .ibportWrite ..
  | .registerWrite .. | .hostWindowAccess .. | .hostAtomicop .. | .getVersion .. | .getCapabilities ..
  | .negotiateAlgorithms .. | .getDigests .. | .getCertificate .. | .challenge .. | .getMeasurements ..
  | .keyExchange .. | .finish .. | .vendorDefinedRequest .. | .spdmOtherRequest .. | .linkRetry ..
  | .portStateChange .. | .remoteChunkArrival .. | .ringHopFailure .. | .deviceReset .. | .firmwareStart ..
  | .railTrimDone .. | .panelCalDone .. | .sealedRead .. | .railGapRestored .. | .blockFetch ..
  | .powerOff .. => none

/-- The bytes memory holds for a parcel of `nbits` bits: a 32-bit word with its upper halfword first, each
halfword little-endian (R77). -/
def parcelBytes (nbits w : Nat) : List Byte :=
  if nbits = 16 then [BitVec.ofNat 8 w, BitVec.ofNat 8 (w / 256)]
  else [BitVec.ofNat 8 (w / 65536), BitVec.ofNat 8 (w / 16777216), BitVec.ofNat 8 w, BitVec.ofNat 8 (w / 256)]

/-- The instruction the decoder reads from a row of the opcode table: the parcel's bytes as memory holds them,
given to the decoder, which must use them all. -/
def decodeTableWord (nbits w : Nat) : Option Instr :=
  match decode (parcelBytes nbits w) with
  | .ok (i, []) => some i
  | _ => none

end Sys2Proof
end

