-- ==== Sys2Proof/Machine/State.lean ====
section
/-! DEFINITION. The state of the Yalax, as plain data, and the state after reset. -/

namespace Sys2Proof.Machine

/-- A table from numbers to values, keys strictly rising. What an absent key reads as is said at each use. -/
abbrev Tbl (α : Type) := List (Nat × α)

/-- Why the machine stops. No instruction of the opcode table stops it. -/
inductive Fault where
  /-- an access to physical HBM at or above 2^38, which no rule lets software form (R388); raised by nothing a
  program can do; safe -/
  | noSuchMemory (address : Nat)
  deriving DecidableEq, Repr

/-- Why the model gives no next state. -/
inductive Refusal where
  /-- an instruction without a meaning yet: raised by an arm of exec alone; safe -/
  | notModelled (mnemonic : String)
  deriving DecidableEq, Repr

/-- How a stream stands at its position (R78, R365, R390). -/
inductive Entry where
  /-- at a header, to be entered: the execution count is fixed there -/
  | fresh
  /-- resumed inside a block, whose count belongs to the saved context -/
  | resumed
  /-- inside a block that its loop buffer holds -/
  | inside
  deriving DecidableEq, Repr

/-- A stream's position (R76, R78, R365). -/
structure Pos where
  /-- block header address -/
  hdr : Nat
  /-- halfwords from the start of the body -/
  off : Nat
  /-- LEN of the block -/
  len : Nat
  /-- executions of the body still due, the one in progress included -/
  reps : Nat
  /-- how the stream stands there -/
  entry : Entry
  deriving DecidableEq, Repr

/-- A trap of a stream (R364). -/
structure TrapRec where
  cause : Nat
  info : Word
  stream : StreamId
  /-- header and halfword offset of the instruction concerned -/
  hdr : Nat
  off : Nat
  seq : Word
  deriving DecidableEq, Repr

/-- Where a byte lives (R140). -/
inductive Loc where
  /-- a core's scratch (spaces 0 and 1) -/
  | scratch (core off : Nat)
  /-- a cluster's scratch (space 2) -/
  | cluster (cluster off : Nat)
  /-- HBM, a physical address (space 4) -/
  | hbm (pa : Nat)
  /-- HBM through a page with the system-atomic attribute, never cached (R160) -/
  | direct (pa : Nat)
  /-- host memory, a bus address (space 6) -/
  | host (addr : Nat)
  deriving DecidableEq, Repr

/-- The operations of R184. -/
inductive AtOp where
  | add | addw | fadd | min | max | minu | maxu | and | or | xor | xchg | cas | fmin | fmax
  deriving DecidableEq, Repr

/-- The operations of R181. -/
inductive FeOp where
  | ldf | ldfe | ste | stf | sete
  deriving DecidableEq, Repr

/-- What an outstanding access does when it is performed (R152, R166). -/
inductive AccKind where
  /-- a load of its bytes into rd, sign-extended or not -/
  | load (rd : Reg) (signed : Bool)
  | store
  /-- an atomic of R184; `new` is the second operand of ATCAS; rd is written when it returns the old word -/
  | atomic (op : AtOp) (new : Word) (rd : Option Reg)
  /-- LDD from a FIFO bank of the core's cluster (R142) -/
  | fifoLoad (bank : Nat) (rd : Reg)
  /-- STD to a FIFO bank -/
  | fifoStore (bank : Nat)
  /-- an atomic already performed whose old word, the value, is still to be written to rd -/
  | returning (rd : Reg)
  deriving DecidableEq, Repr

/-- An access that has passed R176 and is still in flight (R110, R152). -/
structure Access where
  kind : AccKind
  /-- where each of its bytes lives, in address order -/
  locs : List Loc
  /-- the bytes stored, or the operand, as a register value -/
  value : Word
  /-- element address (R176), for causes 0x13 -/
  addr : Nat
  /-- order field (R153): bit 0 acquire, bit 1 release -/
  order : BitVec 2
  /-- BIND of the layout (R157) -/
  bind : Nat
  /-- the layout's policy lets it allocate in the core cache (R144) -/
  alloc : Bool
  /-- position of the instruction, for causes 0x13 (R179) -/
  hdr : Nat
  off : Nat
  /-- arrival order -/
  order0 : Nat
  deriving DecidableEq, Repr

/-- A vector-unit instruction that has issued (R220, R221), with what it read at issue. -/
structure VecOp where
  instr : Instr
  /-- scalar operands read at issue -/
  s1 : Word
  s2 : Word
  /-- %tround and %tsrb as they stood at issue (R223, R239) -/
  tround : BitVec 2
  tsrb : Nat
  deriving DecidableEq, Repr

/-- What a stream waits for (R62, R67, R182, R190). -/
inductive WaitOn where
  /-- a pending register, or a counter at its limit (R110, R166) -/
  | register
  /-- room in a unit of the core: vector unit, matrix queue, copies (R221, R284) -/
  | unit
  /-- an event (R67); `keep` for EWAITK, and the halfwords of the instruction -/
  | event (n : Nat) (keep : Bool) (len : Nat)
  /-- the counters of WAITC (R192) -/
  | counters
  /-- a meeting (R156) -/
  | join (mask : BitVec 4) (scope : BitVec 2)
  /-- a signaller ahead of its phase (R196) -/
  | signal (phaser : Nat)
  /-- completion of a phase (R196); `next` holds rd of PHNEXT -/
  | phase (phaser n : Nat) (next : Option Reg)
  /-- a full/empty word (R182) -/
  | word (op : FeOp) (rd : Reg) (value : Word) (locs : List Loc)
  /-- room in a queue, or the end of its spill block (R203, R358); `pub` for QPUB -/
  | queueRoom (queue : Nat) (pub : Bool)
  /-- a record at the head of a queue (R202) -/
  | queueHead (queue : Nat)
  /-- an issued vector-unit instruction ahead of its claim (R62, R220) -/
  | claim (o : VecOp)
  /-- an array instruction that has passed steps 1 to 9 of R256 and waits at step 10: its panel, and the BASE of its
  mask plane if it is AMASK -/
  | panel (i : Instr) (p plane : Nat)
  /-- a bank switch (R148); `started` once this instruction's switch drains -/
  | bank (b : Nat) (started : Bool)
  /-- the twin's XSW (R211) -/
  | xsw (tile : Nat)
  /-- completion of earlier array instructions (R272) -/
  | arrays
  deriving DecidableEq, Repr

/-- One stream of a core. -/
structure Stream where
  /-- s0 to s31 (R56); s0 is never written -/
  regs : Vector Word 32
  /-- call stack, newest first, at most 8 (R57) -/
  stack : List Nat
  pos : Pos
  /-- the stream has executed PEND (R114) -/
  ended : Bool
  /-- %seq (R74) -/
  seq : Word
  /-- %pace (R74) -/
  pace : BitVec 16
  /-- the core's count when the stream's last heavy instruction issued (R133) -/
  lastHeavy : Option Nat
  /-- RLABEL target, 0 if none (R213) -/
  rlabel : Nat
  /-- held tickets: queue id and ticket (R201) -/
  tickets : List (Nat × Nat)
  /-- outstanding accesses in program order (R110, R152) -/
  accesses : List Access
  /-- the wait in progress and its arrival order -/
  wait : Option (WaitOn × Nat)
  /-- a held trap (R368) -/
  held : Option TrapRec
  deriving DecidableEq, Repr

/-- A tile: descriptor, data and claims (R58, R63, R64). -/
structure Tile where
  fmt : Nat
  rows1 : Nat
  cols1 : Nat
  full : Bool
  ov : Bool
  nv : Bool
  sat : Bool
  fz : Bool
  /-- data and scale plane, 32 KiB; an unlisted byte is 0 -/
  data : List Host.Cell
  /-- plain reads that hold a claim -/
  reads : Nat
  /-- a consuming read holds a claim -/
  consuming : Bool
  /-- a write holds a claim -/
  writing : Bool
  /-- FULL set by TEMPTY or TFULL while claimed (R64) -/
  override : Option Bool
  deriving DecidableEq, Repr

/-- An accumulator (R66, R231). An unlisted element is +0; element (i, j) has number 128 i + j. -/
structure Accum where
  elems : Tbl (BitVec 64)
  ov : Bool
  nv : Bool
  sat : Bool
  /-- drain shape -/
  rows : Nat
  cols : Nat
  deriving DecidableEq, Repr

/-- A TM instruction in the matrix unit (R221). -/
structure MatOp where
  instr : Instr
  /-- coordinates of TDRAINM, read at issue -/
  coords : Word
  tclamp : BitVec 32
  /-- started and holding its claims -/
  started : Bool
  /-- blocks of 16 k done (R231) -/
  done : Nat
  /-- finished, to be completed -/
  ready : Bool
  hdr : Nat
  off : Nat
  /-- arrival number of its issue -/
  issued : Nat
  /-- when it began to wait (R63) -/
  since : Nat
  deriving DecidableEq, Repr

/-- An array operation in progress (R257). -/
structure ArrOp where
  instr : Instr
  panel : Nat
  /-- AMASK: BASE of its plane, as step 7 of R256 found it (R268) -/
  plane : Nat
  /-- parameters copied at issue -/
  params : Vector Word 24
  /-- stop units done (R274) -/
  units : Nat
  /-- result count so far -/
  count : Nat
  ov : Bool
  nv : Bool
  sat : Bool
  /-- sums kept across units, as ACAL keeps its column means -/
  kept : List Rat
  /-- all units done -/
  ready : Bool
  /-- completed, its ap.stat write held (R257) -/
  finished : Bool
  hdr : Nat
  off : Nat
  /-- arrival number of its issue -/
  issued : Nat
  deriving DecidableEq, Repr

/-- A hoist copy (R283 to R288). -/
structure Copy where
  instr : Instr
  /-- rc, rc + 1 and the token register -/
  coords : Word
  second : Word
  token : Nat
  ordinal : BitVec 32
  /-- claimed and started -/
  started : Bool
  /-- next chunk -/
  chunk : Nat
  /-- index list of a gather or scatter (R291) -/
  index : List Int
  /-- completion status (R286), once the copy has ended -/
  status : Option Nat
  /-- a chunk was skipped (R287, HPF) -/
  skipped : Bool
  /-- trap raised by the copy and its chunk waits for RETT (R287) -/
  stopped : Bool
  hdr : Nat
  off : Nat
  /-- arrival number of its issue -/
  issued : Nat
  /-- when it began to wait for its claim (R63) -/
  since : Nat
  deriving DecidableEq, Repr

/-- A byte held in a core cache (R144, R152, R157). -/
structure CacheByte where
  value : BitVec 8
  dirty : Bool
  /-- the copy holds an uncorrectable error (R179, R386) -/
  bad : Bool
  /-- bindings of the stores since it was last written home -/
  binds : List Nat
  deriving DecidableEq, Repr

/-- A panel (R17, R244, R271, R339). Cell (i, j) has number 512 i + j. -/
structure Panel where
  /-- slow weights; an unlisted cell is 0 -/
  slow : Tbl Rat
  /-- fast weights; an unlisted cell is 0 -/
  fast : Tbl Rat
  /-- s_w -/
  sw : BitVec 32
  /-- column gains g_j, BF16; unlisted 1.0 -/
  gcol : Tbl (BitVec 16)
  /-- row gains h_i, BF16; unlisted 1.0 -/
  hrow : Tbl (BitVec 16)
  /-- symmetry points SP_c, BF16; unlisted +0 -/
  sp : Tbl (BitVec 16)
  /-- mask codes of group g of column j at 128 j + g; unlisted 0 -/
  mask : Tbl Nat
  maskBound : Bool
  maskHome : Nat
  rowGen : Word
  colGen : Word
  /-- pulses each cell has received, fast and slow together -/
  wear : Tbl Nat
  calibrated : Bool
  spare : Bool
  /-- retired without a spare -/
  retired : Bool
  /-- a retirement is requested -/
  retiring : Bool
  advise : Bool
  /-- accepted write of s_w not yet applied (R339) -/
  pendingSw : Option (BitVec 32)
  /-- partition that owns the panel -/
  owner : Option Nat
  deriving DecidableEq, Repr

/-- The point a core runs (R74, R112, R113, R207). -/
structure Point where
  recNo : Nat
  serial : Nat
  /-- crew kind: 0 core, 1 shaft, 2 cluster -/
  kind : Nat
  /-- lowest core of the crew -/
  base : Nat
  rank : Nat
  coords : List Nat
  range : Bool
  /-- layout snapshot (R72) -/
  layouts : List (BitVec 512)
  /-- lamp class: 0 none, 1 single, 2 sprint -/
  lamp : Nat
  panels : BitVec 32
  /-- accumulator policy: scan -/
  scan : Bool
  /-- the arming of its record that fired it (R348, log 82) -/
  arming : Nat
  deriving DecidableEq, Repr

/-- A CARVE whose phase has not completed (R147). -/
structure CarveReq where
  count : Nat
  phaser : Nat
  phase : Nat
  st : StreamId
  hdr : Nat
  off : Nat
  /-- issued in privileged state -/
  priv : Bool
  /-- record and serial of the point it was issued in -/
  recNo : Nat
  serial : Nat
  deriving DecidableEq, Repr

/-- A core and everything only it holds. -/
structure Core where
  halted : Bool
  /-- HALT executed, outstanding operations finishing (R216) -/
  halting : Bool
  /-- its crew has failed; it halts once its streams stand at their stop units (R369) -/
  failed : Bool
  /-- an uncorrectable error lies in the state that trap entry writes (R369) -/
  trapBad : Bool
  point : Option Point
  /-- privileged state (R328) -/
  priv : Bool
  hregs : Vector Word 32
  hstack : List Nat
  hpos : Pos
  trapcause : Word
  trapinfo : Word
  trappc : Word
  trapseq : Word
  /-- %cycle at its last reading (R20, log 5) -/
  cycle : Word
  /-- trap raised and not yet entered (R364) -/
  raised : Option TrapRec
  /-- pre-emption asks the core to stop (R372) -/
  stop : Bool
  /-- crew suspended by a spill fault (R360) -/
  suspended : Bool
  /-- an action of R135 has been taken (R374) -/
  committed : Bool
  trapvec : Word
  wdog : Word
  lampmax : Word
  /-- %partition (R329) -/
  partition : Word
  tround : BitVec 2
  tsrb : Nat
  tclamp : BitVec 32
  /-- the model's count of this core's steps (log 5) -/
  ticks : Nat
  strC : Stream
  strT : Stream
  strA : Stream
  strH : Stream
  events : BitVec 32
  gen : Word
  /-- tile count (R15) -/
  ntiles : Nat
  /-- tiles; an unlisted tile is zero with the reset descriptor -/
  tiles : Tbl Tile
  m0 : Accum
  m1 : Accum
  vec : Option VecOp
  /-- matrix unit, oldest first, at most 4 and the one at work (R221) -/
  mat : List MatOp
  /-- ap.nv to ap.stat (R70) -/
  ap : Vector Word 24
  /-- array operations in issue order -/
  arr : List ArrOp
  /-- hoist copies in issue order -/
  copies : List Copy
  ordinal : BitVec 32
  /-- pending CARVEs, at most one for a phase of a phaser (R147) -/
  carve : List CarveReq
  /-- tile under exchange -/
  xsw : Option Nat
  /-- core scratch; an unlisted byte is 0 -/
  scratch : List Host.Cell
  /-- the model's own: the arrival number of the last change of the tile count and the size of scratch before it, which accesses
  issued before it still reach (R146, log 71) -/
  resized : Option (Nat × Nat)
  /-- full words of core scratch, by word number -/
  scratchFull : Tbl Bool
  /-- bytes of core scratch that hold an uncorrectable error (R179) -/
  scratchBad : Tbl Bool
  /-- core cache by physical address -/
  cache : Tbl CacheByte
  panels : Tbl Panel
  spares : Nat
  /-- ECC freeze in progress (R386) -/
  frozen : Bool
  /-- the core wants the lamp again after a restore (R137) -/
  lampWant : Bool
  deriving DecidableEq, Repr

/-- A shaft (R68, R130 to R134, R411). -/
structure Shaft where
  win : Vector Word 8
  /-- lower twin holds the lamp -/
  lower : Bool
  upper : Bool
  /-- requests in order: core numbers, and 2,048 for the calibration of the shaft's panels (R420) -/
  reqs : List Nat
  /-- core whose grant is the older -/
  older : Nat
  /-- order number of the sprint in progress -/
  sprintAt : Nat
  cool : Bool
  temp : Nat
  hot : Bool
  throt : Bool
  /-- 105 degrees has been acted on and not yet left (R407) -/
  emerg : Bool
  /-- calibration of the shaft's panels holds the lamp (R420) -/
  cal : Bool
  /-- milliseconds of the sprint or cool-down as it began (R411) -/
  spms : Nat
  deriving DecidableEq, Repr

/-- A participant of a phaser (R195). -/
structure Participant where
  core : Nat
  st : StreamId
  sig : Bool
  wait : Bool
  /-- cursor k -/
  cursor : Nat
  /-- pending PHROLE: signaller, waiter -/
  newRole : Option (Bool × Bool)
  /-- record and serial of the participant's point, which a save keeps (R372) -/
  recNo : Nat
  serial : Nat
  deriving DecidableEq, Repr

/-- A signal of a phase (R157): the stream that gave it, the arrival number before which its writes were issued, and the record and
serial of its point, which a save keeps. -/
structure Gate where
  core : Nat
  st : StreamId
  before : Nat
  recNo : Nat
  serial : Nat
  deriving DecidableEq, Repr

/-- A phaser (R194 to R198, R335, R416). -/
structure Phaser where
  alloc : Bool
  bytes : Bool
  part : Nat
  err : Nat
  phase : Nat
  members : List Participant
  /-- a signaller has left the current phase unsignalled (R197) -/
  signalled : Bool
  /-- signals of the current phase (R157) -/
  gates : List Gate
  posted : Option Nat
  arrived : Nat
  /-- excess of the most recently completed phase -/
  excess : Nat
  /-- ordered mode (R416) -/
  ordEn : Bool
  ordLo : Nat
  ordNsrc : Nat
  ordErr : Nat
  /-- bytes each contributor has delivered in this phase -/
  shares : Tbl Nat
  deriving DecidableEq, Repr

/-- What stands at a ticket of a queue (R201, R358, R361). -/
inductive SlotState where
  /-- reserved and not published -/
  | reserved
  /-- published, the record here (hardware entry) -/
  | entry (words : List Word)
  /-- published, the record in the sump -/
  | sump
  /-- VOID -/
  | void
  deriving DecidableEq, Repr

/-- A ticket in use: its number, its sump ring position if it has one, and what stands there. -/
structure Slot where
  ticket : Nat
  ring : Option Nat
  state : SlotState
  /-- a freed hardware entry waits for this ticket's refill (R359) -/
  waits : Bool
  /-- first core of the crew whose take freed that entry (R363) -/
  taker : Nat
  deriving DecidableEq, Repr

/-- A put whose sump write faulted (R360). -/
structure FaultedPut where
  core : Nat
  st : StreamId
  ticket : Nat
  words : List Word
  /-- first core of the crew that put it, and the serial of its point (R363) -/
  base : Nat
  serial : Nat
  deriving DecidableEq, Repr

/-- A task queue (R200 to R203, R357 to R360). -/
structure TaskQueue where
  en : Bool
  ftrap : Bool
  sspace : Bool
  slog : Nat
  owner : Nat
  sbase : Nat
  head : Nat
  tail : Nat
  scount : Nat
  shead : Nat
  rblk : Bool
  err : Nat
  /-- tickets from head to tail, in order -/
  slots : List Slot
  /-- hardware entries freed while every sump slot had one waiting for it: they wait for slots still to be reserved (R359); the first
  core of the crew whose take freed each, oldest first (R363) -/
  freed : List Nat
  faulted : Option FaultedPut
  deriving DecidableEq, Repr

/-- A cached leaf translation (R392). -/
structure Trans where
  part : Nat
  /-- first virtual address and size of the page -/
  base : Nat
  size : Nat
  pa : Nat
  rd : Bool
  wr : Bool
  sa : Bool
  host : Bool
  deriving DecidableEq, Repr

/-- A cluster. -/
structure Cluster where
  /-- bank modes: 0 cache, 1 scratch, 2 FIFO; unlisted 0 -/
  bankMode : Tbl Nat
  /-- banks that drain, with their target mode -/
  bankBusy : Tbl Nat
  /-- bytes held by FIFO banks, head first -/
  fifo : Tbl (List Byte)
  /-- per FIFO bank, bytes from its head up to and with the first that holds an uncorrectable error; unlisted none -/
  fifoBad : Tbl Nat
  /-- cluster scratch; an unlisted byte is 0 -/
  scratch : List Host.Cell
  scratchFull : Tbl Bool
  /-- bytes of cluster scratch that hold an uncorrectable error (R179) -/
  scratchBad : Tbl Bool
  shadow : Nat
  phasers : Tbl Phaser
  queues : Tbl TaskQueue
  /-- translation cache, most recent first -/
  tcache : List Trans
  vset : Nat
  vnow : Nat
  fset : Nat
  fnow : Nat
  rgap : Bool
  pacemin : Nat
  /-- clock stopped by the rail monitor (R404) -/
  stopped : Bool
  trimmed : Bool
  lost : Bool
  deriving DecidableEq, Repr

/-- The states of a launch record (R126). -/
inductive RecState where
  | free | built | armed | waiting | active | done | faulted
  deriving DecidableEq, Repr

/-- One entry of a tensor-statistics table (R338). -/
structure Stat where
  ov : Bool
  nv : Bool
  sat : Bool
  fz : Bool
  merges : Nat
  drops : Nat
  deriving DecidableEq, Repr

/-- A fired point (R351, R352). -/
structure Fired where
  serial : Nat
  coords : List Nat
  line : Nat
  /-- rounds passed over (R352) -/
  age : Nat
  /-- firing order -/
  order : Nat
  /-- lowest core of its crew, once dispatched -/
  crew : Option Nat
  /-- its crew has received its start state -/
  started : Bool
  /-- its crew has ended it -/
  ended : Bool
  /-- RANGE: the remainder, the intervals and the flags of R122 -/
  cur : Nat
  stop : Nat
  nint : Nat
  exhausted : Bool
  intervals : List (Nat × Nat)
  deriving DecidableEq, Repr

/-- A launch record (R126, R342 to R356). -/
structure Record where
  words : Vector Word 32
  state : RecState
  /-- next serial (R351) -/
  nser : Nat
  /-- 0 none, 1 predecessor, 2 face slot -/
  waitr : Nat
  slot : Nat
  /-- when its predecessors were all DONE (R346) -/
  readyAt : Nat
  /-- heights by line (R117); unlisted 0 -/
  heights : Tbl Nat
  /-- fired points not complete, in firing order -/
  points : List Fired
  /-- placement snapshot (R343) -/
  ptab : List Nat
  /-- statistics table (R338) -/
  stats : Tbl Stat
  /-- crew used last (R354) -/
  lastCrew : Option Nat
  /-- RANGE: returned intervals, dispatched points, whether the first crew took the range -/
  returned : List (Nat × Nat)
  nextOrd : Nat
  taken : Bool
  /-- partition whose slice held it when it was armed -/
  part : Nat
  /-- BASE of the statistics layout as arming read it (R338) -/
  statBase : Nat
  /-- the model's own: armings so far, which tell a point of an earlier one apart (log 82) -/
  arming : Nat
  deriving DecidableEq, Repr

/-- A bank command of a partition window: arrival number, cluster, bank and mode (R336). -/
structure BankCmd where
  since : Nat
  cluster : Nat
  bank : Nat
  mode : Nat
  deriving DecidableEq, Repr

/-- A partition control block and the window registers of its partition (R330, R331, R370). -/
structure Pcb where
  clusters : BitVec 128
  formed : Bool
  isSealed : Bool
  shadow : Nat
  tag : Nat
  poolBase : Nat
  poolCnt : Nat
  /-- TROOT as written, [55:0] -/
  troot : Nat
  dphaser : BitVec 256
  err : Nat
  saveBase : Nat
  saveDl : Nat
  saved : Bool
  saving : Bool
  restoring : Bool
  emerg : Bool
  isLost : Bool
  saveNo : Nat
  /-- every acknowledgement is held (R372, step 2) -/
  saveStopped : Bool
  lrec : Nat
  lword : Nat
  ldata : Word
  lerr : Nat
  lstate : Nat
  clCluster : Nat
  clBank : Nat
  clMode : Nat
  clErr : Nat
  /-- a bank command that waits for its bank (R336) -/
  clWait : Option BankCmd
  /-- cluster and bank of the window's own switch, while it drains (R331) -/
  clDrain : Option (Nat × Nat)
  /-- KEYSLOT: p + 1 while formed (R330, R332) -/
  keySlot : Nat
  /-- the key in that slot, by the number of its drawing (R399) -/
  key : Nat
  /-- PCB bytes 0 to 0x3F and the slice at the last FORM, as one number (R402) -/
  formNo : Nat
  deriving DecidableEq, Repr

/-- Where an image of a save stands (R375, R378). -/
structure SavedImage where
  core : Nat
  recNo : Nat
  serial : Nat
  /-- in the shadow area of this cluster, or in device memory -/
  shadow : Option Nat
  offset : Nat
  /-- bytes, seal block included -/
  length : Nat
  saveNo : Nat
  scan : Bool
  /-- sealed, and not damaged since (R377, R383) -/
  sound : Bool
  /-- the core as it stood -/
  image : Core
  /-- window registers, when this image carries them -/
  win : Option (Vector Word 8)
  deriving DecidableEq, Repr

/-- A sealed save of a partition (R372 to R380). -/
structure Save where
  images : List SavedImage
  /-- records saved: number, RANGE, byte offset in the save area -/
  records : List (Nat × Bool × Nat)
  /-- the records as they stood -/
  saved : Tbl Record
  used : Nat
  deriving DecidableEq, Repr

/-- A port of Ibwald (R412). -/
structure Port where
  state : Nat
  en : Bool
  peer : Nat
  retry : Nat
  deriving DecidableEq, Repr

/-- A BAR 2 window (R396). -/
structure Window where
  part : Nat
  en : Bool
  wen : Bool
  base : Nat
  deriving DecidableEq, Repr

/-- A fault report: the four words of R363. -/
structure Report where
  w0 : Word
  w1 : Word
  w2 : Word
  w3 : Word
  deriving DecidableEq, Repr

/-- What a host access is answered with (R397). -/
inductive HostReply where
  | none
  | value (v : Word)
  | unsupportedRequest
  | completerAbort
  | done
  deriving DecidableEq, Repr

/-- The algorithms of the SPDM responder (R401). -/
inductive SpdmAlgorithm where
  /-- asymmetric, extended -/
  | slhDsaShake256s
  /-- key exchange, extended -/
  | mlKem1024
  /-- base hash -/
  | sha3_384
  /-- AEAD -/
  | aes256Gcm
  deriving DecidableEq, Repr

/-- What the SPDM responder last answered (R401). -/
inductive SpdmReply where
  | none
  | version (major minor : Nat)
  | capabilities
  | algorithms (l : List SpdmAlgorithm)
  | digests (d : BitVec 384)
  | certificate (slot : Nat) (chain : BitVec 512)
  | challengeAuth (sig : BitVec 512)
  | measurements (blocks : List (Nat × BitVec 512 × Nat))
  | keyExchange (session : Nat)
  | finished (session : Nat)
  | vendor (err state : Nat)
  | busy
  | unsupportedRequest
  | invalidRequest
  deriving DecidableEq, Repr

/-- The whole device and what the model adds to it. -/
structure State where
  /-- the model's own: which stream moves next (log 1) -/
  turn : Option (Nat × StreamId)
  /-- the model's own: events that happen next, oldest first (log 1) -/
  agenda : List Instr
  /-- the model's own: arrival counter (log 1) -/
  order : Nat
  /-- the model's own: panels follow the nominal model of R1 (log 7) -/
  nominal : Bool
  /-- the model's own: free values used so far (log 4) -/
  draws : Nat
  /-- cores; an unlisted core is as reset leaves it -/
  cores : Tbl Core
  shafts : Tbl Shaft
  clusters : Tbl Cluster
  /-- HBM bytes as stored; an unlisted byte is 0 (log 3) -/
  hbm : List Host.Cell
  /-- 1 more than the key under which each 64-byte line of HBM was written; unlisted 0, never written (R399) -/
  hbmKey : Tbl Nat
  /-- HBM bytes that hold an uncorrectable error (R179, R386) -/
  poison : Tbl Bool
  /-- host memory; an unlisted byte is 0 (log 3) -/
  host : List Host.Cell
  /-- host addresses whose access the host answers with an error (R163) -/
  hostBad : Tbl Bool
  records : Tbl Record
  dispen : Bool
  recsel : Nat
  reccmdErr : Nat
  fqBase : Nat
  fqLog : Nat
  fqInten : Bool
  fqHead : Nat
  fqTail : Nat
  /-- reports that wait for room (R363): partition and entry -/
  reports : List (Nat × Report)
  msix : Nat
  /-- point completions that wait for a headframe round: record, serial and arming (R345, R348) -/
  completions : List (Nat × Nat × Nat)
  dphasers : Tbl Phaser
  pcbs : Tbl Pcb
  saves : Tbl Save
  /-- keys drawn so far (R399) -/
  keys : Nat
  /-- the model's own: partitions that an uncorrectable error is about to reset (R386, log 75) -/
  resetDue : List Nat
  invPart : Nat
  invAll : Bool
  invSize : Nat
  invBusy : Bool
  /-- the model's own: arrival number of the invalidation in progress (log 1) -/
  invAt : Nat
  invVa : Nat
  windows : Tbl Window
  logCount : Nat
  /-- log entries by slot: word 0 and word 1 (R398) -/
  log : Tbl (Word × Word)
  psust : Nat
  psprint : Nat
  spen : Bool
  pavg : Nat
  lrErr : Nat
  /-- energy counters by tag (R409, R410) -/
  energy : Tbl Word
  ports : Tbl Port
  routes : Tbl Nat
  devnum : Nat
  devnumSet : Bool
  /-- 0, or the failed check of R400 -/
  fwstat : Nat
  /-- the firmware has been checked and may start (R400) -/
  fwReady : Bool
  fwContent : Nat
  fwVersion : Nat
  /-- digests of the ROM, the image and the identity fields that the collar ROM recorded (R400) -/
  romDigest : BitVec 512
  fwDigest : BitVec 512
  idDigest : BitVec 512
  /-- measurements of partitions formed or dissolved since the last round, as they stood before (R402) -/
  measured : Tbl (Option Nat)
  stage : Nat
  /-- the model's own: every rail has been trimmed since the firmware started (R420, log 47) -/
  rails : Bool
  calcl : Nat
  /-- stacks whose logic rail is cut (R387) -/
  cut : BitVec 4
  /-- non-volatile advisory and count of retired panels (R422) -/
  advise : Bool
  nret : Nat
  /-- SPDM sessions: number and whether established (R401) -/
  sessions : List (Nat × Bool)
  nextSession : Nat
  spdm : SpdmReply
  reply : HostReply
  /-- chunks sent to other devices: device number and chunk, newest first (R294) -/
  sent : List (Nat × RemoteChunk)
  /-- arrived chunks that wait their turn: source and chunk (R416) -/
  inbound : List (Nat × RemoteChunk)
  deriving DecidableEq, Repr

/-- No position: no point runs (log 2). -/
def Pos.none : Pos := ⟨0, 0, 0, 0, .fresh⟩

/-- A stream at device reset (R75, log 2). -/
def Stream.reset : Stream where
  regs := Vector.replicate 32 0
  stack := []
  pos := Pos.none
  ended := false
  seq := 0
  pace := 0
  lastHeavy := none
  rlabel := 0
  tickets := []
  accesses := []
  wait := none
  held := none

/-- A tile with zero data and the reset descriptor (R58). -/
def Tile.reset : Tile where
  fmt := 1
  rows1 := 127
  cols1 := 127
  full := false
  ov := false
  nv := false
  sat := false
  fz := false
  data := []
  reads := 0
  consuming := false
  writing := false
  override := none

/-- An accumulator of +0 with clear status (R75, R231). -/
def Accum.reset : Accum := ⟨[], false, false, false, 128, 128⟩

/-- The zero substitute of R53. -/
def zeroSubstitute : Word := 0x9E3779B97F4A7C15

/-- A panel at device reset: not calibrated (R419, log 6). -/
def Panel.reset : Panel where
  slow := []
  fast := []
  sw := 0x3F800000
  gcol := []
  hrow := []
  sp := []
  mask := []
  maskBound := false
  maskHome := 0
  rowGen := zeroSubstitute
  colGen := zeroSubstitute
  wear := []
  calibrated := false
  spare := false
  retired := false
  retiring := false
  advise := false
  pendingSw := none
  owner := none

/-- The array parameter registers at reset (R70). -/
def apReset : Vector Word 24 :=
  #v[1, 1, 0x3F800000, 0x3F800000, 0x3F800000, 1, 0x3F800000, 2032, 0, 512, 0x3F800000, 0,
     1, 0, 512, 0, 0, 0, 0, 0, 16, 0x3B800000, 0, 0]

/-- A core at device reset (R75, R329, R332, log 2). -/
def Core.reset : Core where
  halted := true
  halting := false
  failed := false
  trapBad := false
  point := none
  priv := false
  hregs := Vector.replicate 32 0
  hstack := []
  hpos := Pos.none
  trapcause := 0
  trapinfo := 0
  trappc := 0
  trapseq := 0
  cycle := 0
  raised := none
  stop := false
  suspended := false
  committed := false
  trapvec := 0
  wdog := 0x04000000
  lampmax := 65536
  partition := 0
  tround := 0
  tsrb := 16
  tclamp := 0x7F7FFFFF
  ticks := 0
  strC := Stream.reset
  strT := Stream.reset
  strA := Stream.reset
  strH := Stream.reset
  events := 0
  gen := zeroSubstitute
  ntiles := 24
  tiles := []
  m0 := Accum.reset
  m1 := Accum.reset
  vec := none
  mat := []
  ap := apReset
  arr := []
  copies := []
  ordinal := 0
  carve := []
  xsw := none
  scratch := []
  resized := none
  scratchFull := []
  scratchBad := []
  cache := []
  panels := []
  spares := 2
  frozen := false
  lampWant := false

/-- A shaft at device reset (R75, R411, log 2). -/
def Shaft.reset : Shaft where
  win := Vector.replicate 8 0
  lower := false
  upper := false
  reqs := []
  older := 0
  sprintAt := 0
  cool := false
  temp := 0
  hot := false
  throt := false
  emerg := false
  cal := false
  spms := 0

/-- A phaser at device reset (R335, R416). -/
def Phaser.reset : Phaser where
  alloc := false
  bytes := false
  part := 0
  err := 0
  phase := 0
  members := []
  signalled := false
  gates := []
  posted := none
  arrived := 0
  excess := 0
  ordEn := false
  ordLo := 0
  ordNsrc := 1
  ordErr := 0
  shares := []

/-- A task queue at device reset (R357). -/
def TaskQueue.reset : TaskQueue where
  en := false
  ftrap := false
  sspace := false
  slog := 6
  owner := 0
  sbase := 0
  head := 0
  tail := 0
  scount := 0
  shead := 0
  rblk := false
  err := 0
  slots := []
  freed := []
  faulted := none

/-- A cluster at device reset: 0.9 GHz until its rail is trimmed (R148, R411, R419). -/
def Cluster.reset : Cluster where
  bankMode := []
  bankBusy := []
  fifo := []
  fifoBad := []
  scratch := []
  scratchFull := []
  scratchBad := []
  shadow := 0
  phasers := []
  queues := []
  tcache := []
  vset := 570
  vnow := 570
  fset := 900
  fnow := 900
  rgap := false
  pacemin := 0
  stopped := false
  trimmed := false
  lost := false

/-- A launch record at device reset: FREE (R126, R362). -/
def Record.reset : Record where
  words := Vector.replicate 32 0
  state := .free
  nser := 1
  waitr := 0
  slot := 0
  readyAt := 0
  heights := []
  points := []
  ptab := []
  stats := []
  lastCrew := none
  returned := []
  nextOrd := 0
  taken := false
  part := 0
  statBase := 0
  arming := 0

/-- A partition control block at device reset (R330, R331, R370). -/
def Pcb.reset : Pcb where
  clusters := 0
  formed := false
  isSealed := false
  shadow := 0
  tag := 0
  poolBase := 0
  poolCnt := 0
  troot := 0
  dphaser := 0
  err := 0
  saveBase := 0
  saveDl := 0x00100000
  saved := false
  saving := false
  restoring := false
  emerg := false
  isLost := false
  saveNo := 0
  saveStopped := false
  lrec := 0
  lword := 0
  ldata := 0
  lerr := 0
  lstate := 0
  clCluster := 0
  clBank := 0
  clMode := 0
  clErr := 0
  clWait := none
  clDrain := none
  keySlot := 0
  key := 0
  formNo := 0

/-- A port at device reset (R412, log 22). -/
def Port.reset : Port := ⟨0, false, 0, 0⟩

/-- The device right after reset. -/
def State.reset : State where
  turn := none
  agenda := []
  order := 0
  nominal := true
  draws := 0
  cores := []
  shafts := []
  clusters := []
  hbm := []
  hbmKey := []
  poison := []
  host := []
  hostBad := []
  records := []
  dispen := true
  recsel := 0
  reccmdErr := 0
  fqBase := 0
  fqLog := 4
  fqInten := false
  fqHead := 0
  fqTail := 0
  reports := []
  msix := 0
  completions := []
  dphasers := []
  pcbs := []
  saves := []
  keys := 0
  resetDue := []
  invPart := 0
  invAll := false
  invSize := 0
  invBusy := false
  invAt := 0
  invVa := 0
  windows := []
  logCount := 0
  log := []
  psust := 1500
  psprint := 1900
  spen := true
  pavg := 0
  lrErr := 0
  energy := []
  ports := []
  routes := []
  devnum := 0
  devnumSet := false
  fwstat := 0
  fwReady := false
  fwContent := 0
  fwVersion := 0
  romDigest := 0
  fwDigest := 0
  idDigest := 0
  measured := []
  stage := 0
  rails := false
  calcl := 0
  cut := 0
  advise := false
  nret := 0
  sessions := []
  nextSession := 0
  spdm := .none
  reply := .none
  sent := []
  inbound := []

end Sys2Proof.Machine
end

