-- ==== Sys2Proof/Machine/Table.lean ====
section
/-! DEFINITION. Tables in one canonical form, and runs of bytes. -/

namespace Sys2Proof.Machine

/-- The entry at a key. -/
def tfind {α : Type} : Tbl α → Nat → Option α
  | [], _ => none
  | (k', v) :: t, k => if k = k' then some v else tfind t k

/-- What a key reads as: `d` where the table lists none. -/
def tget {α : Type} (d : α) (t : Tbl α) (k : Nat) : α := (tfind t k).getD d

/-- Lists a value at a key, keeping the keys rising. -/
def tput {α : Type} : Tbl α → Nat → α → Tbl α
  | [], k, v => [(k, v)]
  | (k', v') :: t, k, v =>
    if k = k' then (k, v) :: t
    else if k < k' then (k, v) :: (k', v') :: t
    else (k', v') :: tput t k v

/-- Removes a key. -/
def terase {α : Type} (t : Tbl α) (k : Nat) : Tbl α := t.filter fun p => p.1 != k

/-- Writes a value: a value an unlisted key reads as is not listed. -/
def tset {α : Type} [DecidableEq α] (d : α) (t : Tbl α) (k : Nat) (v : α) : Tbl α :=
  if v = d then terase t k else tput t k v

/-- The canonical form: keys strictly rising, no entry equal to what an unlisted key reads as. -/
abbrev TableWf {α : Type} [DecidableEq α] (d : α) (t : Tbl α) : Prop :=
  t.Pairwise (fun a b => a.1 < b.1) ∧ ∀ p ∈ t, p.2 ≠ d

/-- A listed value, unless it is the default. -/
def tcons {α : Type} [DecidableEq α] (d : α) (k : Nat) (v : α) (t : Tbl α) : Tbl α :=
  if v = d then t else (k, v) :: t

/-- Puts one entry of a rising list in its place and goes on with the rest. -/
def tinsertThen {α : Type} [DecidableEq α] (d : α) (k : Nat) (v : α) (rest : Tbl α → Tbl α) :
    Tbl α → Tbl α
  | [] => tcons d k v (rest [])
  | (k', v') :: t =>
    if k' < k then (k', v') :: tinsertThen d k v rest t
    else if k' = k then tcons d k v (rest t)
    else tcons d k v (rest ((k', v') :: t))

/-- Writes a rising list of entries at once. -/
def tmerge {α : Type} [DecidableEq α] (d : α) : List (Nat × α) → Tbl α → Tbl α
  | [], old => old
  | (k, v) :: ns, old => tinsertThen d k v (tmerge d ns) old

/-- Writes a list of entries in any order, the later winning. -/
def tsetAll {α : Type} [DecidableEq α] (d : α) (t : Tbl α) : List (Nat × α) → Tbl α
  | [] => t
  | (k, v) :: ns => tsetAll d (tset d t k v) ns

/-- The values at `n` keys from `a` on. -/
def trun {α : Type} (d : α) (t : Tbl α) : Nat → Nat → List α
  | _, 0 => []
  | a, n + 1 => tget d t a :: trun d t (a + 1) n

/-- Values numbered from a key on. -/
def numbered {α : Type} : Nat → List α → List (Nat × α)
  | _, [] => []
  | a, v :: vs => (a, v) :: numbered (a + 1) vs

/-- Keeps the entries of keys below a bound. -/
def tbelow {α : Type} (t : Tbl α) (n : Nat) : Tbl α := t.filter fun p => decide (p.1 < n)

/-- Little-endian value of bytes (R177). -/
def leNat : List Byte → Nat
  | [] => 0
  | b :: bs => b.toNat + 256 * leNat bs

/-- The `n` low bytes of a number, little-endian (R177). -/
def leBytes : Nat → Nat → List Byte
  | 0, _ => []
  | n + 1, v => BitVec.ofNat 8 v :: leBytes n (v / 256)

/-- Replaces the element at an index. -/
def setAt {α : Type} (l : List α) (i : Nat) (v : α) : List α := l.set i v

end Sys2Proof.Machine
end

