-- ==== Sys2Proof/Machine/Bits.lean ====
section
/-! DEFINITION. Bit fields, sign extension and lanes. -/

namespace Sys2Proof.Machine

/-- Bits [hi:lo] of a word, as a number. -/
def field (w : Word) (lo n : Nat) : Nat := w.toNat / 2 ^ lo % 2 ^ n

/-- One bit of a word. -/
def bitAt (w : Word) (i : Nat) : Bool := w.getLsbD i

/-- A number as a word. -/
def word (n : Nat) : Word := BitVec.ofNat 64 n

/-- An integer as a word, two's complement. -/
def wordI (n : Int) : Word := BitVec.ofInt 64 n

/-- A field of `n` bits, sign-extended to a word. -/
def signExt {n : Nat} (v : BitVec n) : Word := v.signExtend 64

/-- A field of `n` bits, zero-extended to a word. -/
def zeroExt {n : Nat} (v : BitVec n) : Word := v.setWidth 64

/-- A Boolean as a number. -/
def bit (b : Bool) : Nat := if b then 1 else 0

/-- A Boolean as a word. -/
def flag (b : Bool) : Word := if b then 1 else 0

/-- Signed lane k of a coordinate register (R73). -/
def lane (w : Word) (k : Nat) : Int := (BitVec.ofNat 16 (w.toNat / 2 ^ (16 * k))).toInt

/-- A value of `n` bits as a signed number. -/
def signed (n v : Nat) : Int := if v % 2 ^ n < 2 ^ (n - 1) then (v % 2 ^ n : Nat) else ((v % 2 ^ n : Nat) : Int) - 2 ^ n

/-- Replaces halfword h of a word (R170). -/
def insertHalf (w : Word) (h : Nat) (v : BitVec 16) : Word :=
  (w &&& ~~~ ((0xFFFF : Word) <<< (16 * h))) ||| (v.setWidth 64 <<< (16 * h))

/-- Lane-wise 16-bit addition with no carry between lanes (R167). -/
def laneAdd (a b : Word) : Word :=
  let l (k : Nat) : Word := ((a >>> (16 * k)).setWidth 16 + (b >>> (16 * k)).setWidth 16).setWidth 64 <<< (16 * k)
  l 0 ||| l 1 ||| l 2 ||| l 3

/-- Leading zero bits of the low `n` bits. -/
def leadingZeros : Nat → Word → Nat
  | 0, _ => 0
  | n + 1, w => if w.getLsbD n then 0 else 1 + leadingZeros n w

/-- Trailing zero bits, looking at `n` bits from bit `i` on. -/
def trailingZeros : Nat → Nat → Word → Nat
  | 0, _, _ => 0
  | n + 1, i, w => if w.getLsbD i then 0 else 1 + trailingZeros n (i + 1) w

/-- One bits among the low `n` bits. -/
def oneBits : Nat → Word → Nat
  | 0, _ => 0
  | n + 1, w => bit (w.getLsbD n) + oneBits n w

end Sys2Proof.Machine
end

