-- ==== Sys2Proof/Machine/Ops.lean ====
section
/-! DEFINITION. The named operations over the state: its parts, registers, retiring and waiting, the lamp,
fault reports, taking a trap and returning from it. -/

namespace Sys2Proof.Machine

/-- The outcome of a meaning. -/
abbrev Out := Host.Outcome State Fault Refusal

/-! ### Parts of the state -/

/-- Core k (R10). -/
def State.core (s : State) (k : Nat) : Core := tget Core.reset s.cores k

/-- Replaces core k. -/
def State.setCore (s : State) (k : Nat) (c : Core) : State := { s with cores := tput s.cores k c }

/-- Shaft n. -/
def State.shaft (s : State) (n : Nat) : Shaft := tget Shaft.reset s.shafts n

/-- Replaces shaft n. -/
def State.setShaft (s : State) (n : Nat) (h : Shaft) : State := { s with shafts := tput s.shafts n h }

/-- Cluster n. -/
def State.cluster (s : State) (n : Nat) : Cluster := tget Cluster.reset s.clusters n

/-- Replaces cluster n. -/
def State.setCluster (s : State) (n : Nat) (c : Cluster) : State := { s with clusters := tput s.clusters n c }

/-- Launch record r. -/
def State.record (s : State) (r : Nat) : Record := tget Record.reset s.records r

/-- Replaces launch record r. -/
def State.setRecord (s : State) (r : Nat) (x : Record) : State := { s with records := tput s.records r x }

/-- Partition control block p. -/
def State.pcb (s : State) (p : Nat) : Pcb := tget Pcb.reset s.pcbs p

/-- Replaces partition control block p. -/
def State.setPcb (s : State) (p : Nat) (b : Pcb) : State := { s with pcbs := tput s.pcbs p b }

/-- Lowest member cluster of a partition, whose translation cache the headframe's reads use. -/
def Pcb.firstCluster (b : Pcb) : Nat := ((List.range 128).find? fun c => b.clusters.getLsbD c).getD 0

/-- Stream st of a core. -/
def Core.stream (c : Core) (st : StreamId) : Stream :=
  match st with
  | .c => c.strC
  | .t => c.strT
  | .a => c.strA
  | .h => c.strH

/-- Replaces stream st of a core. -/
def Core.setStream (c : Core) (st : StreamId) (x : Stream) : Core :=
  match st with
  | .c => { c with strC := x }
  | .t => { c with strT := x }
  | .a => { c with strA := x }
  | .h => { c with strH := x }

/-- Stream st of core k. -/
def State.stream (s : State) (k : Nat) (st : StreamId) : Stream := (s.core k).stream st

/-- Replaces stream st of core k. -/
def State.setStream (s : State) (k : Nat) (st : StreamId) (x : Stream) : State :=
  s.setCore k ((s.core k).setStream st x)

/-- The core's clock runs and its stack has power (R387, R404). -/
def State.clocked (s : State) (k : Nat) : Bool := !(s.cluster (k / 16)).stopped && !s.cut.getLsbD (k / 512)

/-- The four streams in the order of R74. -/
def streamIds : List StreamId := [.c, .t, .a, .h]

/-- Cluster of a core (R10). -/
def clusterOf (k : Nat) : Nat := k / 16

/-- Shaft of a core (R10). -/
def shaftOf (k : Nat) : Nat := k / 2

/-- Twin of a core (R10). -/
def twinOf (k : Nat) : Nat := if k % 2 = 0 then k + 1 else k - 1

/-- Partition a core belongs to, from %partition (R329). -/
def Core.part (c : Core) : Nat := field c.partition 0 7

/-- Cores of a crew of a kind from its first core on (R112). -/
def crewCores (kind base : Nat) : List Nat :=
  match kind with
  | 0 => [base]
  | 1 => [base, base + 1]
  | _ => (List.range 16).map (base + ·)

/-- The next arrival number, and the state after it is taken. -/
def State.tick (s : State) : State := { s with order := s.order + 1 }

/-- Puts an event at the end of the agenda. -/
def State.later (s : State) (e : Instr) : State := { s with agenda := s.agenda ++ [e] }

/-- An uncorrectable error outside any stream's read resets the partition that owns the data (R386): the reset comes before a
stream moves again (log 75). -/
def State.resetLater (s : State) (part : Nat) : State := { s with resetDue := s.resetDue ++ [part] }

/-- Uses up one free value (log 4). -/
def State.draw (s : State) : State := { s with draws := s.draws + 1 }

/-! ### Registers -/

/-- The C stream runs on its handler bank (R364). -/
def Core.onHandler (c : Core) (st : StreamId) : Bool := c.priv && st == .c

/-- The scalar registers a stream runs on (R56, R364). -/
def Core.bank (c : Core) (st : StreamId) : Vector Word 32 :=
  if c.onHandler st then c.hregs else (c.stream st).regs

/-- A register as read: s0 is zero (R56). -/
def bankGet (b : Vector Word 32) (r : Reg) : Word := if r = 0 then 0 else b[r.toNat]'r.isLt

/-- A register bank with a register written: s0 discards the write (R56). -/
def bankSet (b : Vector Word 32) (r : Reg) (v : Word) : Vector Word 32 :=
  if r = 0 then b else b.set r.toNat v r.isLt

/-- A scalar register of the stream's current bank (R56). -/
def State.reg (s : State) (k : Nat) (st : StreamId) (r : Reg) : Word := bankGet ((s.core k).bank st) r

/-- A core with a scalar register of a stream's current bank written. -/
def Core.setReg (c : Core) (st : StreamId) (r : Reg) (v : Word) : Core :=
  if c.onHandler st then { c with hregs := bankSet c.hregs r v }
  else c.setStream st { c.stream st with regs := bankSet (c.stream st).regs r v }

/-- Writes a scalar register of the stream's current bank (R56). -/
def State.setReg (s : State) (k : Nat) (st : StreamId) (r : Reg) (v : Word) : State :=
  s.setCore k ((s.core k).setReg st r v)

/-- Writes consecutive registers from r on (R85). -/
def State.setRegs (s : State) (k : Nat) (st : StreamId) (r : Nat) : List Word → State
  | [] => s
  | v :: vs => (s.setReg k st (BitVec.ofNat 5 r) v).setRegs k st (r + 1) vs

/-- Consecutive registers from r on (R85). -/
def State.regRun (s : State) (k : Nat) (st : StreamId) (r n : Nat) : List Word :=
  (List.range n).map fun i => s.reg k st (BitVec.ofNat 5 (r + i))

/-- The register an outstanding access will write (R166). -/
def Access.dest (a : Access) : Option Reg :=
  match a.kind with
  | .load rd _ => some rd
  | .atomic _ _ rd => rd
  | .fifoLoad _ rd => some rd
  | .returning rd => some rd
  | .store => none
  | .fifoStore _ => none

/-- The register is pending: an outstanding load, returning atomic or copy will write it (R111, R166). -/
def Core.pending (c : Core) (st : StreamId) (r : Reg) : Bool :=
  r != 0 && ((c.stream st).accesses.any (fun a => a.dest == some r) ||
    (st == .h && c.copies.any fun p => p.token == r.toNat))

/-- One of the registers is pending. -/
def State.anyPending (s : State) (k : Nat) (st : StreamId) (rs : List Reg) : Bool :=
  rs.any ((s.core k).pending st)

/-! ### Program order of accesses (R152) -/

/-- A TDRAINM, whose rows are accesses of the T stream. -/
def isDrainm (i : Instr) : Bool :=
  match i with
  | .tdrainm .. => true
  | _ => false

/-- AMASK or ARGRW, whose plane reads and plane writes are accesses of the A stream (R152, R269). -/
def usesPlane (i : Instr) : Bool :=
  match i with
  | .amask .. | .argrw .. => true
  | _ => false

/-- An AMASK or ARGRW that has still to access its plane. -/
def ArrOp.reading (o : ArrOp) : Bool := usesPlane o.instr && !o.ready && !o.finished

/-- The user streams of the core stop at their stop units, or have (R360, R364, R369, R372). -/
def Core.stopping (c : Core) : Bool := c.raised.isSome || c.priv || c.stop || c.failed || c.suspended

/-- An access stands behind a copy, a TDRAINM or an AMASK of its stream that was issued before it (R152). Once the
streams stop, that operation goes no further than its stop unit, and the access completes without it (R373, log 20). -/
def Core.heldBehind (c : Core) (st : StreamId) (a : Access) : Bool :=
  !c.stopping &&
  match st with
  | .c => false
  | .t => c.mat.any fun m => isDrainm m.instr && decide (m.issued < a.order0)
  | .a => c.arr.any fun o => o.reading && decide (o.issued < a.order0)
  | .h => c.copies.any fun p => decide (p.issued < a.order0)

/-- A copy, TDRAINM or AMASK issued at an arrival number stands behind no access of its stream (R152). -/
def Core.accessesBefore (c : Core) (st : StreamId) (n : Nat) : Bool :=
  (c.stream st).accesses.any fun a => decide (a.order0 < n)

/-- Every memory access and copy of a stream has completed (R156): TDRAINM and the plane read of AMASK among
them. -/
def Core.quiet (c : Core) (st : StreamId) : Bool :=
  (c.stream st).accesses.isEmpty &&
    (match st with
    | .t => c.mat.all fun m => !isDrainm m.instr
    | .a => c.arr.all fun o => !o.reading
    | .h => c.copies.isEmpty
    | .c => true)

/-! ### Position, retiring and waiting -/

/-- Position of a stream in its current bank. -/
def Core.pos (c : Core) (st : StreamId) : Pos := if c.onHandler st then c.hpos else (c.stream st).pos

/-- A core with a stream's position replaced. -/
def Core.setPos (c : Core) (st : StreamId) (p : Pos) : Core :=
  if c.onHandler st then { c with hpos := p } else c.setStream st { c.stream st with pos := p }

/-- Position of a stream of core k. -/
def State.pos (s : State) (k : Nat) (st : StreamId) : Pos := (s.core k).pos st

/-- Replaces the position of a stream. -/
def State.setPos (s : State) (k : Nat) (st : StreamId) (p : Pos) : State := s.setCore k ((s.core k).setPos st p)

/-- Call stack of a stream in its current bank (R57, R364). -/
def State.stackOf (s : State) (k : Nat) (st : StreamId) : List Nat :=
  if (s.core k).onHandler st then (s.core k).hstack else (s.stream k st).stack

/-- Replaces the call stack of a stream. -/
def State.setStack (s : State) (k : Nat) (st : StreamId) (l : List Nat) : State :=
  if (s.core k).onHandler st then s.setCore k { s.core k with hstack := l }
  else s.setStream k st { s.stream k st with stack := l }

/-- The header that follows a block: the next address divisible by 4 after the body (R77). -/
def Pos.nextHeader (p : Pos) : Nat := (p.hdr + 4 + 2 * p.len + 3) / 4 * 4

/-- A position at a header not yet entered. -/
def Pos.enter (hdr : Nat) : Pos := ⟨hdr % 2 ^ 57, 0, 0, 0, .fresh⟩

/-- The position after an instruction of `len` halfwords (R78): the next parcel, the body again, or the next
header. -/
def Pos.after (p : Pos) (len : Nat) : Pos :=
  if p.off + len < p.len then { p with off := p.off + len }
  else if 1 < p.reps then { p with off := 0, reps := p.reps - 1 }
  else Pos.enter p.nextHeader

/-- A core whose stream has retired an instruction and stands at a position: %seq rises by 1 (R175) and no wait
is left. -/
def Core.retireTo (c : Core) (st : StreamId) (p : Pos) : Core :=
  let c := c.setStream st { c.stream st with seq := (c.stream st).seq + 1, wait := none }
  { c.setPos st p with ticks := c.ticks + 1 }

/-- Retires an instruction of `len` halfwords. -/
def State.retire (s : State) (k : Nat) (st : StreamId) (len : Nat) : State :=
  s.setCore k ((s.core k).retireTo st ((s.core k).pos st |>.after len))

/-- Retires an instruction and goes to a header (R78). -/
def State.retireTo (s : State) (k : Nat) (st : StreamId) (hdr : Nat) : State :=
  s.setCore k ((s.core k).retireTo st (Pos.enter hdr))

/-- The stream waits (R138, R190): its arrival order is that of the first time it waits on this. -/
def State.waitOn (s : State) (k : Nat) (st : StreamId) (w : WaitOn) : State :=
  let c := s.core k
  let x := c.stream st
  match x.wait with
  | some (w', _) =>
    if w' = w then s.setCore k { c with ticks := c.ticks + 1 }
    else (s.setCore k { c.setStream st { x with wait := some (w, s.order) } with ticks := c.ticks + 1 }).tick
  | none => (s.setCore k { c.setStream st { x with wait := some (w, s.order) } with ticks := c.ticks + 1 }).tick

/-- Arrival order of a stream that waits on this, or the next arrival number. -/
def State.arrival (s : State) (k : Nat) (st : StreamId) (w : WaitOn) : Nat :=
  match (s.stream k st).wait with
  | some (w', n) => if w' = w then n else s.order
  | none => s.order

/-- Every stream that waits: arrival order, core, stream and what it waits on. -/
def State.waiters (s : State) : List (Nat × Nat × StreamId × WaitOn) :=
  s.cores.flatMap fun (k, c) =>
    streamIds.filterMap fun st =>
      match (c.stream st).wait with
      | some (w, n) => some (n, k, st, w)
      | none => none

/-- Puts an entry into a list that rises by its first number. -/
def insertByOrder {α : Type} (x : Nat × α) : List (Nat × α) → List (Nat × α)
  | [] => [x]
  | y :: l => if x.1 < y.1 then x :: y :: l else y :: insertByOrder x l

/-- Waiters in arrival order. -/
def sortByOrder {α : Type} (l : List (Nat × α)) : List (Nat × α) := l.foldr insertByOrder []

/-- The stream that acts does f. An encoded instruction with no stream to act for has no effect (log 1). -/
def onTurn (s : State) (f : Nat → StreamId → State) : Out :=
  match s.turn with
  | none => .next s
  | some (k, st) => .next (f k st)

/-- The instruction word of an instruction, for %trapinfo (R103). -/
def instrWord (i : Instr) : Word :=
  match encode i with
  | some (_, w) => word w
  | none => 0

/-! ### HBM as stored -/

/-- Lines of HBM that a run of bytes touches (R399). -/
def linesOf (pa n : Nat) : List Nat := if n = 0 then [] else (List.range ((pa + n - 1) / 64 - pa / 64 + 1)).map (pa / 64 + ·)

/-- A line of HBM reads in the clear under a key: it was written under it, or never written (R399, log 3). -/
def State.lineClear (s : State) (key line : Nat) : Bool := tget 0 s.hbmKey line == 0 || tget 0 s.hbmKey line == key + 1

/-- A byte of HBM read under a key (R399). -/
def State.hbmGet (s : State) (key pa : Nat) : Byte := if s.lineClear key (pa / 64) then tget 0 s.hbm pa else Config.garbled key pa

/-- What a line written under another key becomes where a write under this key leaves it: the line is the data unit,
so the write encrypts under its own key what it read under it (R399). -/
def State.relined (s : State) (key : Nat) (lines : List Nat) : List (Nat × Byte) :=
  (lines.filter fun l => !s.lineClear key l).flatMap fun l => numbered (64 * l) ((List.range 64).map fun i => Config.garbled key (64 * l + i))

/-- Writes bytes of HBM under a key (R399). -/
def State.hbmPut (s : State) (key pa : Nat) (bs : List Byte) : State :=
  let lines := linesOf pa bs.length
  { s with hbm := tmerge 0 (numbered pa bs) (tmerge 0 (s.relined key lines) s.hbm),
           hbmKey := tmerge 0 (numbered (pa / 64) (lines.map fun _ => key + 1)) s.hbmKey,
           poison := tmerge false (numbered pa (bs.map fun _ => false)) s.poison }

/-- A byte of a table as a partition's walker reads it: in the clear where its line was written under the partition's key or the
system key (R389, R399, log 59). -/
def State.tableByte (s : State) (key pa : Nat) : Byte :=
  if s.lineClear key (pa / 64) || s.lineClear 0 (pa / 64) then tget 0 s.hbm pa else Config.garbled key pa

/-- A table entry as a partition's walker reads it. -/
def State.tableWord (s : State) (key pa : Nat) : Nat := leNat ((List.range 8).map fun i => s.tableByte key (pa + i))

/-! ### Energy -/

/-- Charges the counter of a tag, which wraps modulo 2^64 (R409). -/
def State.chargeTag (s : State) (tag fj : Nat) : State := { s with energy := tset 0 s.energy tag (tget 0 s.energy tag + word fj) }

/-- Charges the context of a core (R409). -/
def State.charge (s : State) (k : Nat) (fj : Nat) : State := s.chargeTag (s.pcb (s.core k).part).tag fj

/-- Dies of the gallery ring: stacks S0 to S3 and the I/O die (R9). -/
def ioDie : Nat := 4

/-- Hops of the shorter path between two dies of the ring (R9). -/
def ringHops (a b : Nat) : Nat := min (max a b - min a b) (5 - (max a b - min a b))

/-- Die of a core: its stack (R10). -/
def dieOf (k : Nat) : Nat := k / 512

/-- Charge for moving a byte between a die and a location (R9, R409): cluster SRAM, HBM or host, and the hops of the gallery
ring, the host being reached through the I/O die. -/
def locCharge (die : Nat) : Loc → Nat
  | .scratch _ _ => 0
  | .cluster _ _ => 200
  | .hbm pa => 9600 + 640 * ringHops die (pa / 2 ^ 36 % 4)
  | .direct pa => 9600 + 640 * ringHops die (pa / 2 ^ 36 % 4)
  | .host _ => 5000 + 640 * ringHops die ioDie

/-- Charges a tag for bytes on the on-die network; the clusters that they cross are a free number (R409, log 12). -/
def State.chargeNet (s : State) (tag bytes : Nat) : State := (s.chargeTag tag (120 * bytes * Config.clustersCrossed s.draws)).draw

/-- Charges the system account for the 32 bytes of a fault report, which the headframe writes into the system's memory (R363, R409,
log 12). -/
def State.chargeReport (s : State) : State :=
  let pa := (s.fqBase + 32 * (s.fqTail % 2 ^ s.fqLog)) % Config.hbmSize
  (s.chargeTag 0 (32 * locCharge ioDie (.hbm pa))).chargeNet 0 32

/-! ### The logs and fault reports -/

/-- An entry of the host log (R398): of an event of the device itself, or of an access whose requester is free (log 49). -/
def State.logHost (s : State) (kind part addr : Nat) (device : Bool) : State :=
  let rid := if device then none else Config.requester s.draws
  { s with
    log := tput s.log (s.logCount % 64)
      (word ((rid.getD 0).toNat + 2 ^ 16 * kind + 2 ^ 24 * part + 2 ^ 31 * bit rid.isNone), word addr),
    logCount := s.logCount + 1, draws := s.draws + 1 }

/-- Writes a fault report, or keeps it until there is room (R363). -/
def State.report (s : State) (part : Nat) (r : Report) : State :=
  if s.reports = [] ∧ (s.fqTail + 2 ^ 32 - s.fqHead) % 2 ^ 32 < 2 ^ s.fqLog then
    let s1 := s.hbmPut 0 ((s.fqBase + 32 * (s.fqTail % 2 ^ s.fqLog)) % Config.hbmSize)
      (leBytes 8 r.w0.toNat ++ leBytes 8 r.w1.toNat ++ leBytes 8 r.w2.toNat ++ leBytes 8 r.w3.toNat)
    { s1.chargeReport with fqTail := (s.fqTail + 1) % 2 ^ 32, msix := s.msix + bit s.fqInten }
  else { s with reports := s.reports ++ [(part, r)] }

/-- The fields of a fault report (R363). -/
def mkReport (kind part obj core ticket detail va serial : Nat) : Report where
  w0 := word (kind + 2 ^ 8 * part + 2 ^ 15 * obj + 2 ^ 27 * core)
  w1 := word (ticket + 2 ^ 32 * detail)
  w2 := word va
  w3 := word serial

/-- A record becomes FAULTED: nothing more of it fires (R348). -/
def Record.faulted (r : Record) : Record :=
  { r with state := .faulted, points := r.points.filter (fun p => p.crew.isSome) }

/-- A record becomes FAULTED with its launch-fault entry (R348, R363). -/
def State.faultRecord (s : State) (r detail core va serial : Nat) : State :=
  let x := s.record r
  if x.state = .faulted then s
  else (s.setRecord r x.faulted).report x.part (mkReport 1 x.part r core 0 detail va serial)

/-! ### The lamp (R130 to R134, R405) -/

/-- The instruction is heavy (R19). -/
def isHeavy (i : Instr) : Bool :=
  match i with
  | .afwd .. | .abwd .. | .aupd .. | .axfr .. | .acal .. | .aprog .. | .argrw .. | .tmma .. | .tmmaz .. => true
  | _ => false

/-- Core k holds its shaft's lamp. -/
def State.holdsLamp (s : State) (k : Nat) : Bool :=
  if k % 2 = 0 then (s.shaft (shaftOf k)).lower else (s.shaft (shaftOf k)).upper

/-- The shaft is in a sprint: both twins hold the lamp. -/
def Shaft.both (h : Shaft) : Bool := h.lower && h.upper

/-- Shafts in sprint (R411). -/
def State.sprints (s : State) : List (Nat × Shaft) := s.shafts.filter fun p => p.2.both

/-- The lamp class of what a core runs (R132). -/
def Core.lampClass (c : Core) : Nat :=
  match c.point with
  | some p => p.lamp
  | none => 0

/-- What R134 and row 5 of R405 ask of a shaft, apart from the twins' class. -/
def State.sprintPossible (s : State) (n : Nat) : Bool :=
  let h := s.shaft n
  !h.hot && !h.cool && s.spen && decide (s.sprints.length < 256) && decide (s.pavg ≤ s.psust) &&
    decide (100 * s.pavg + 62 ≤ 100 * s.psprint)

/-- The number by which the calibration of a shaft's panels requests the lamp (R420): it is no core's. -/
def calRequest : Nat := 2048

/-- Gives the lamp of its shaft to a core, or to the calibration of its panels. -/
def Shaft.give (h : Shaft) (k : Nat) : Shaft :=
  if k = calRequest then { h with cal := true }
  else if k % 2 = 0 then { h with lower := true, older := k } else { h with upper := true, older := k }

/-- Takes the lamp of its shaft from a core. -/
def Shaft.take (h : Shaft) (k : Nat) : Shaft :=
  if k % 2 = 0 then { h with lower := false } else { h with upper := false }

/-- A sprint, if there is one, ends into its cool-down of 800 ms (R134, R411). -/
def Shaft.endBoth (h : Shaft) : Shaft := if h.both then { h with cool := true, spms := 800 } else h

/-- A core whose streams stop for a save gives a lamp that it is granted up at once, in its handler too; a sprint that ends so cools down
(R317, R384). -/
def State.yieldLamp (s : State) (k : Nat) : State :=
  let n := shaftOf k
  if (s.core k).stop then s.setShaft n { (s.shaft n).endBoth.take k with older := twinOf k } else s

/-- Grants the oldest request, if the lamp is free or BOTH may be granted (R130, R134, R405). -/
def State.grantOne (s : State) (n : Nat) : State :=
  let h := s.shaft n
  match h.reqs with
  | [] => s
  | k :: rest =>
    if !h.lower && !h.upper && !h.cal then (s.setShaft n { h.give k with reqs := rest }).yieldLamp k
    else if !h.cal && k != calRequest && !s.holdsLamp k && (s.core k).lampClass == 2 && (s.core (twinOf k)).lampClass == 2 &&
        s.sprintPossible n then
      ({ s.setShaft n { h.give k with reqs := rest, older := h.older, sprintAt := s.order, spms := 200 } with order := s.order + 1 }).yieldLamp k
    else s

/-- Grants what can be granted on a shaft, whose requests are at most its two cores' and the calibration's. -/
def State.grant (s : State) (n : Nat) : State := ((s.grantOne n).grantOne n).grantOne n

/-- A core asks for the lamp, unless it holds it or has asked (R130, R209). -/
def State.askLamp (s : State) (k : Nat) : State :=
  let n := shaftOf k
  let h := s.shaft n
  if s.holdsLamp k || h.reqs.contains k then s
  else (s.setShaft n { h with reqs := h.reqs ++ [k] }).grant n

/-- Calibration asks for the lamp of a shaft, unless it holds it or has asked (R420). -/
def State.askCal (s : State) (n : Nat) : State :=
  let h := s.shaft n
  if h.cal || h.reqs.contains calRequest then s else (s.setShaft n { h with reqs := h.reqs ++ [calRequest] }).grant n

/-- Calibration gives the lamp of a shaft up, or its request (R420). -/
def State.freeCal (s : State) (n : Nat) : State :=
  let h := s.shaft n
  (s.setShaft n { h with cal := false, reqs := h.reqs.filter (· != calRequest) }).grant n

/-- A heavy instruction of the core is in progress (R131). -/
def Core.heavyRunning (c : Core) : Bool :=
  c.arr.any (fun a => isHeavy a.instr && !a.ready && !a.finished) ||
    c.mat.any (fun m => isHeavy m.instr && m.started && !m.ready)

/-- The core gives the lamp up: it passes, a sprint ends into its cool-down, and a heavy instruction in progress
asks again (R131, R134). Between two steps every heavy instruction stands at a stop unit (log 9). -/
def State.loseLamp (s : State) (k : Nat) : State :=
  let n := shaftOf k
  let h := s.shaft n
  if s.holdsLamp k then
    let s1 := (s.setShaft n { h.endBoth.take k with older := twinOf k }).grant n
    if (s.core k).heavyRunning then s1.askLamp k else s1
  else s

/-- Withdraws a pending request (R209). -/
def State.withdrawLamp (s : State) (k : Nat) : State :=
  let n := shaftOf k
  let h := s.shaft n
  s.setShaft n { h with reqs := h.reqs.filter (· != k) }

/-- Ends a sprint by its limit, the hot mark or power: the older grant keeps the lamp, the other asks again
(R134). -/
def State.endSprint (s : State) (n : Nat) : State :=
  let h := s.shaft n
  if h.both then
    let loser := if h.older % 2 = 0 then 2 * n + 1 else 2 * n
    (s.setShaft n (h.endBoth.take loser)).askLamp loser
  else s

/-! ### Phasers as a core names them (R71, R194, R195) -/

/-- A cluster phaser of 1 to 64, or a device phaser of 65 to 320, as a core names it (R71, R194). -/
def State.phaser (s : State) (cl n : Nat) : Phaser :=
  if n ≤ 64 then tget Phaser.reset (s.cluster cl).phasers (n - 1) else tget Phaser.reset s.dphasers (n - 65)

/-- Replaces a phaser. -/
def State.setPhaser (s : State) (cl n : Nat) (p : Phaser) : State :=
  if n ≤ 64 then s.setCluster cl { s.cluster cl with phasers := tput (s.cluster cl).phasers (n - 1) p }
  else { s with dphasers := tput s.dphasers (n - 65) p }

/-- Record and serial of the point a core runs. -/
def Core.pointKey (c : Core) : Nat × Nat :=
  match c.point with
  | some p => (p.recNo, p.serial)
  | none => (0, 0)

/-- The participant is stream st of the point core k runs. -/
def State.isMember (s : State) (k : Nat) (st : StreamId) (m : Participant) : Bool :=
  m.core == k && m.st == st && (m.recNo, m.serial) == (s.core k).pointKey

/-- Replaces the registration of a stream. -/
def State.setMember (s : State) (k : Nat) (st : StreamId) (n : Nat) (f : Participant → Participant) : State :=
  let p := s.phaser (clusterOf k) n
  s.setPhaser (clusterOf k) n { p with members := p.members.map fun m => if s.isMember k st m then f m else m }

/-- The signal is one of stream st of the point core k runs. -/
def State.gateOf (s : State) (k : Nat) (st : StreamId) (g : Gate) : Bool :=
  g.core == k && g.st == st && (g.recNo, g.serial) == (s.core k).pointKey

/-- A PHNEXT that waits for phase ph is stopped: it has no effect, so a signal it has given is taken back (R190). -/
def State.unsignal (s : State) (k : Nat) (st : StreamId) (n ph : Nat) : State :=
  let p := s.phaser (clusterOf k) n
  if p.members.any fun m => s.isMember k st m && m.cursor == (ph + 1) % 2 ^ 32 then
    (s.setPhaser (clusterOf k) n { p with gates := p.gates.filter fun g => !s.gateOf k st g }).setMember k st n
      fun m => { m with cursor := ph }
  else s

/-! ### Taking a trap (R364 to R369) -/

/-- A core whose point is abandoned: everything in progress is dropped, and it halts (R369). -/
def Core.abandon (c : Core) : Core :=
  let quiet (x : Stream) : Stream := { x with accesses := [], wait := none, held := none, ended := true }
  let free (t : Tile) : Tile := { t with reads := 0, consuming := false, writing := false, override := none }
  { c with
    halted := true, halting := false, failed := false, suspended := false, point := none, priv := false, raised := none, stop := false,
    strC := quiet c.strC, strT := quiet c.strT, strA := quiet c.strA, strH := quiet c.strH,
    vec := none, mat := [], arr := [], copies := [], carve := [], xsw := none,
    tiles := c.tiles.map fun p => (p.1, free p.2) }

/-- Every wait of the core is abandoned: the instruction issues again later (R183, R190). -/
def Core.dropWaits (c : Core) : Core :=
  let f (x : Stream) : Stream := { x with wait := none }
  { c with strC := f c.strC, strT := f c.strT, strA := f c.strA, strH := f c.strH }

/-- The signals of the PHNEXTs that wait on some streams of a core are taken back. -/
def State.unsignalAll (s : State) (k : Nat) : List StreamId → State
  | [] => s
  | st :: l =>
    (match (s.stream k st).wait with
    | some (.phase n ph (some _), _) => s.unsignal k st n ph
    | _ => s).unsignalAll k l

/-- Every wait of core k is abandoned, with no effect (R183, R190). -/
def State.dropWaits (s : State) (k : Nat) : State :=
  let s1 := s.unsignalAll k streamIds
  s1.setCore k (s1.core k).dropWaits

/-- Abandons a list of cores; their lamps pass. -/
def State.abandonAll (s : State) : List Nat → State
  | [] => s
  | k :: ks => (((s.setCore k (s.core k).abandon).withdrawLamp k).loseLamp k).abandonAll ks

/-- The other cores of a failed crew stop at their stop units, each to halt then (R369). -/
def State.failAll (s : State) (k : Nat) : List Nat → State
  | [] => s
  | j :: l => (if j = k ∨ (s.core j).halted then s else (s.dropWaits j).setCore j { (s.dropWaits j).core j with failed := true }).failAll k l

/-- The point was fired by the arming that its record is in: a point of an earlier arming has no effect on it (R348, log 82). -/
def State.current (s : State) (p : Point) : Bool := (s.record p.recNo).arming == p.arming

/-- A double fault: the core halts at once, its crew fails, kind 4 is reported and the record is FAULTED (R369). -/
def State.doubleFault (s : State) (k cause : Nat) : State :=
  match (s.core k).point with
  | none => s.setCore k (s.core k).abandon
  | some p =>
    let s1 := (s.abandonAll [k]).failAll k (crewCores p.kind p.base)
    let x := s1.record p.recNo
    let now := s1.current p
    let s2 := if now then s1.setRecord p.recNo { x with points := x.points.filter fun f => f.serial != p.serial } else s1
    let s3 := s2.report x.part (mkReport 4 x.part p.recNo p.base 0 cause 0 p.serial)
    if now then s3.faultRecord p.recNo 3 p.base 0 p.serial else s3

/-- A tile under a claim. -/
def Tile.claimed (t : Tile) : Bool := t.reads != 0 || t.consuming || t.writing

/-- The vector unit holds a TDESC that waits for another unit's claim on its tile (R220, R221). -/
def Core.vecWaits (c : Core) : Bool :=
  match c.vec with
  | some ⟨.tdesc d _ _ _, _, _, _, _⟩ => (tget Tile.reset c.tiles (d.toNat / 8)).claimed
  | _ => false

/-- All four streams of the core stand at their stop units and acknowledge, with no access outstanding (R364, R373). A TDESC
that waits for a claim which an operation keeps at its own stop does not hold the stop up (log 94). -/
def Core.acknowledged (c : Core) : Bool :=
  streamIds.all (fun st => (c.stream st).accesses.isEmpty) &&
  c.copies.all (fun p => p.status.isNone) && (c.vec.isNone || c.vecWaits) && c.xsw.isNone && c.mat.all (fun m => !m.started || (isHeavy m.instr && !m.ready)) &&
  c.arr.all (fun o => !o.ready || o.finished)

/-- Block address and halfword offset as %trappc and %spos show them (R74, R365). -/
def packPos (hdr off : Nat) : Word := word (hdr % 2 ^ 57 + 2 ^ 57 * (off % 128))

/-- The core at the handler's first block (R364): the four trap registers written together, privileged state,
the handler bank with an empty call stack. -/
def Core.enterHandler (c : Core) (t : TrapRec) : Core :=
  { c with
    trapcause := word (t.cause + 256 * (if t.cause = 0x15 then 0 else t.stream.num)),
    trapinfo := t.info,
    trappc := packPos t.hdr t.off,
    trapseq := t.seq,
    priv := true, raised := none, hstack := [], hpos := Pos.enter c.trapvec.toNat }

/-- A trap raised at the core is entered once every stream has acknowledged (R364); a core that a save stops keeps it
for its image (R372). A handler address of 0 wedges the core (R329), and an uncorrectable error in what the entry writes
is a double fault, whose cause is reported as 0x13 (R369, log 72). -/
def State.enterTrap (s : State) (k : Nat) : State :=
  let c := s.core k
  match c.raised with
  | none => s
  | some t =>
    if c.acknowledged && !c.priv && !c.stop && !c.failed then
      if c.trapvec = 0 then s.doubleFault k 0x03
      else if c.trapBad then s.doubleFault k 0x13
      else s.setCore k (c.enterHandler t)
    else s

/-- A stream raises a trap (R364, R368, R369): in privileged state the C stream has a double fault; the first trap
stops the core; a later one is held by its stream. The trap is entered at once when every stream has
acknowledged. -/
def State.raiseAt (s : State) (k : Nat) (st : StreamId) (cause : Nat) (info : Word) (hdr off : Nat) : State :=
  let c := s.core k
  if c.priv && st == .c then s.doubleFault k cause
  else
    let t : TrapRec := ⟨cause, info, st, hdr, off, (c.stream st).seq⟩
    let s1 :=
      match c.raised with
      | none => if c.priv then s.setCore k (c.setStream st { c.stream st with held := some t, wait := none })
                else
                  let s0 := s.dropWaits k
                  s0.setCore k { s0.core k with raised := some t, ticks := c.ticks + 1 }
      | some _ => s.setCore k (c.setStream st { c.stream st with held := some t, wait := none })
    s1.enterTrap k

/-- A trap of an instruction that has retired, found later (R147, R368): the handler may run by now, in which case it is
held; `priv` says that the handler itself issued the instruction. -/
def State.raiseLate (s : State) (k : Nat) (st : StreamId) (priv : Bool) (cause : Nat) (info : Word) (hdr off : Nat) : State :=
  let c := s.core k
  if c.priv && st == .c && !priv then
    s.setCore k (c.setStream st { c.stream st with held := some ⟨cause, info, st, hdr, off, (c.stream st).seq⟩ })
  else s.raiseAt k st cause info hdr off

/-- A stream raises a trap at its position; it resumes at the instruction (R367). -/
def State.raise (s : State) (k : Nat) (st : StreamId) (cause : Nat) (info : Word) : State :=
  let p := s.pos k st
  s.raiseAt k st cause info p.hdr p.off

/-- Retires an instruction of 32 bits and raises a trap; %trappc names it (R215, R367). On the handler it is a double fault. -/
def State.retireAndRaise (s : State) (k : Nat) (st : StreamId) (cause : Nat) (info : Word) : State :=
  let p := s.pos k st
  if (s.core k).onHandler st then s.raise k st cause info
  else (s.retire k st 2).raiseAt k st cause info p.hdr p.off

/-- Cause 0x01, 0x02 or 0x04 with the instruction word (R103). -/
def State.raiseWord (s : State) (k : Nat) (st : StreamId) (cause : Nat) (i : Instr) : State :=
  s.raise k st cause (instrWord i)

/-- Cause 0x03 with a reason and the word concerned (R79). -/
def malformed (reason w : Nat) : Word := word (w + 2 ^ 32 * reason)

/-- The stream that holds a trap and comes first in the order C, T, A, H (R366). -/
def Core.firstHeld (c : Core) : Option (StreamId × TrapRec) :=
  (streamIds.filterMap fun st => (c.stream st).held.map fun t => (st, t)).head?

/-- The bits of %hold (R365): bit 3 C to bit 0 H. -/
def Core.holdBits (c : Core) : Nat :=
  8 * bit c.strC.held.isSome + 4 * bit c.strT.held.isSome + 2 * bit c.strA.held.isSome + bit c.strH.held.isSome

/-- Leaving privileged state (R366): a held trap is entered again at once; otherwise the streams resume. -/
def Core.leaveHandler (c : Core) : Core :=
  match c.firstHeld with
  | some (st, t) => (c.setStream st { c.stream st with held := none }).enterHandler t
  | none => { c with priv := false, copies := c.copies.map fun p => { p with stopped := false } }

/-- The return from a trap (R366). The entry for a held trap finds the handler address, and an uncorrectable error in what it writes,
as R364 and R369 do. -/
def State.returnTrap (s : State) (k : Nat) : State :=
  if (s.core k).trapvec = 0 ∧ (s.core k).firstHeld.isSome then s.doubleFault k 0x03
  else if (s.core k).trapBad && (s.core k).firstHeld.isSome then s.doubleFault k 0x13
  else s.setCore k (s.core k).leaveHandler

/-- A core takes the stop: every wait is abandoned, and it notes whether it holds the lamp (R137, R372, R373). It does so only after
its RETT or HALT, and while its clock runs (R404). -/
def State.takeStop (s : State) (k : Nat) : State :=
  if (s.core k).priv || !s.clocked k then s
  else
    let s1 := s.dropWaits k
    s1.setCore k { s1.core k with lampWant := s.holdsLamp k }

/-- A stopping core gives the lamp up, to the twin if it has asked; a sprint that ends so cools down (R131, R317, R384). Its heavy
instructions stand at stop units (log 9). -/
def State.passLamp (s : State) (k : Nat) : State :=
  let n := shaftOf k
  if s.holdsLamp k && !(s.core k).priv && s.clocked k then (s.setShaft n { (s.shaft n).endBoth.take k with older := twinOf k }).grant n else s

/-- A core that was asked to stop takes the stop now, and gives its lamp up (R317, R372). -/
def State.stopNow (s : State) (k : Nat) : State := if (s.core k).stop then (s.takeStop k).passLamp k else s

/-- The encoding checks left at execution: the stream owns the instruction, else cause 0x02 (R13, R103). -/
def State.ownedBy (s : State) (k : Nat) (st owner : StreamId) (i : Instr) (f : State) : State :=
  if st = owner then f else s.raiseWord k st 0x02 i

/-! ### Statistics and drops (R73, R338) -/

/-- A merge into entry `tid` of the tensor statistics of the record a core runs. -/
def State.stat (s : State) (k tid : Nat) (f : Stat → Stat) : State :=
  match (s.core k).point with
  | none => s
  | some p =>
    let r := s.record p.recNo
    let z : Stat := ⟨false, false, false, false, 0, 0⟩
    if s.current p = false then s else s.setRecord p.recNo { r with stats := tset z r.stats tid (f (tget z r.stats tid)) }

/-- Marks an action of R135 (R374). -/
def State.commit (s : State) (k : Nat) : State := s.setCore k { s.core k with committed := true }

/-- Counts dropped writes against an entry (R73, R338); they are an action of R135. -/
def State.drops (s : State) (k tid n : Nat) : State :=
  if n = 0 then s
  else (s.stat k tid fun e => { e with drops := min (2 ^ 64 - 1) (e.drops + n) }).commit k

/-- Merges status bits into an entry (R338), an action of R135. -/
def State.statBits (s : State) (k tid : Nat) (ov nv sat : Bool) : State :=
  if ov || nv || sat then
    (s.stat k tid fun e => { e with ov := e.ov || ov, nv := e.nv || nv, sat := e.sat || sat }).commit k
  else s

/-- An access that the loads counter counts. -/
def AccKind.isLoad (a : AccKind) : Bool :=
  match a with
  | .load .. => true
  | .fifoLoad .. => true
  | .returning _ => true
  | .atomic _ _ rd => rd.isSome
  | .store => false
  | .fifoStore _ => false

end Sys2Proof.Machine
end

