-- ==== Sys2Proof/Machine/Operands.lean ====
section
/-! DEFINITION. Operand forms: tile fields, layouts, coordinates and the phasers they name (R61, R71 to R73,
R140 to R143). -/

namespace Sys2Proof.Machine

/-! ### Immediates -/

/-- A branch or label target: the header plus 4 times a signed word offset (R80, R90, R213), modulo 2^57. -/
def target {n : Nat} (hdr : Nat) (o : BitVec n) : Nat := (((hdr : Int) + 4 * o.toInt) % 2 ^ 57).toNat

/-! ### Layouts -/

/-- The fields of a layout entry (R71). -/
structure Layout where
  num : Nat
  base : Nat
  space : Nat
  efmt : Nat
  /-- NDIM: dimensions minus 1 -/
  ndim : Nat
  swz : Nat
  bind : Nat
  tid : Nat
  fill : Bool
  trl : Bool
  pol : Nat
  rd : Bool
  wr : Bool
  ext : List Nat
  stride : List Int
  stepk : List Nat
  zeroOk : Bool
  deriving DecidableEq, Repr

/-- Bits of an entry. -/
def entryBits (e : BitVec 512) (lo n : Nat) : Nat := e.toNat / 2 ^ lo % 2 ^ n

/-- The fields of an entry (R71). -/
def parseLayout (num : Nat) (e : BitVec 512) : Layout where
  num := num
  base := entryBits e 0 57
  space := entryBits e 57 3
  efmt := entryBits e 60 4
  ndim := entryBits e 64 2
  swz := entryBits e 66 8
  bind := entryBits e 74 10
  tid := entryBits e 84 10
  fill := entryBits e 94 1 == 1
  trl := entryBits e 95 1 == 1
  pol := entryBits e 96 2
  rd := entryBits e 98 1 == 1
  wr := entryBits e 99 1 == 1
  ext := [entryBits e 128 32, entryBits e 160 32, entryBits e 192 32, entryBits e 224 32]
  stride := [signed 40 (entryBits e 256 40), signed 40 (entryBits e 296 40), signed 40 (entryBits e 336 40),
    signed 40 (entryBits e 376 40)]
  stepk := [entryBits e 416 16, entryBits e 432 16, entryBits e 448 16, entryBits e 464 16]
  zeroOk := entryBits e 100 28 == 0 && entryBits e 480 32 == 0

/-- Bits of an element of a format (R27). -/
def fmtBits (f : Nat) : Nat :=
  match f with
  | 0 => 32 | 1 => 16 | 2 => 8 | 3 => 4 | 4 => 8 | 5 => 32 | 6 => 16 | _ => 32

/-- Bytes an element of a format takes in memory; a nibble counts as 1 (R27, R73). -/
def fmtBytes (f : Nat) : Nat := if f = 3 then 1 else fmtBits f / 8

/-- Code of the canonical quiet NaN of a format, 0 for a format without one (R35). -/
def fmtNan (f : Nat) : Nat :=
  match f with
  | 0 => 0x7FC00000 | 1 => 0x7FC0 | 2 => 0x7F | _ => 0

/-- The phaser number is in range and its phaser belongs to the partition (R194, R335). -/
def State.phaserOwned (s : State) (cl part n : Nat) : Bool :=
  decide (1 ≤ n ∧ n ≤ 320) && (s.phaser cl n).alloc && (s.phaser cl n).part == part

/-- The checks of R72 in its order; `noBytes` for a MEM or AT write and TDRAINM. The failure is the reason of
R164. -/
def State.layout (s : State) (k num : Nat) (needRd needWr noBytes : Bool) : Except Nat Layout :=
  let c := s.core k
  match (match c.point with | some p => p.layouts[num]? | none => none) with
  | none => .error 1
  | some e =>
    let l := parseLayout num e
    if l.space = 7 then .error 2
    else if 8 ≤ l.efmt then .error 3
    else if 321 ≤ l.bind then .error 4
    else if l.bind ≠ 0 ∧ l.space ≠ 5 ∧ s.phaserOwned (clusterOf k) c.part l.bind = false then .error 4
    else if l.space = 5 ∧ ¬ (65 ≤ l.bind ∧ l.bind ≤ 320) then .error 4
    else if l.bind ≠ 0 ∧ l.space ≠ 5 ∧ (s.phaser (clusterOf k) l.bind).bytes ∧ noBytes then .error 4
    else if l.zeroOk = false then .error 5
    else if (needRd && !l.rd) || (needWr && !l.wr) then .error 6
    else if l.efmt = 3 ∧ l.stride.headD 0 ≠ 1 then .error 7
    else .ok l

/-- An access through the layout may allocate in the core cache: POL is not no-allocate (R144). -/
def Layout.allocates (l : Layout) : Bool := l.pol != 3

/-- A layout entry of the point a core runs, without the checks of R72. -/
def State.rawLayout (s : State) (k num : Nat) : Layout :=
  parseLayout num (match (s.core k).point with
    | some p => (p.layouts[num]?).getD 0
    | none => 0)

/-- %trapinfo of cause 0x07 (R164). -/
def layoutInfo (num reason : Nat) : Word := word (num + 256 * reason)

/-- The space is one of those allowed, and a space-3 base names a bank alone (R140, R142, R143). Both failures have reason 8,
which R142 does not name for the base (log 69). -/
def Layout.spaceOk (l : Layout) (allowed : List Nat) : Bool :=
  allowed.contains l.space && (l.space != 3 || l.base / 64 == 0)

/-- idx[k] for coordinates and offsets, one for each dimension the layout has (R73). -/
def Layout.index (l : Layout) (coords : Word) (o : List Int) : List Int :=
  (List.range (l.ndim + 1)).map fun k => lane coords k * (l.stepk.getD k 0 : Nat) + o.getD k 0

/-- The element lies inside the extents (R73). -/
def Layout.inBounds (l : Layout) (idx : List Int) : Bool :=
  (List.range (l.ndim + 1)).all fun k => decide (0 ≤ idx.getD k 0) && decide (idx.getD k 0 < (l.ext.getD k 0 : Nat))

/-- The bank swizzle of R73. -/
def Layout.swizzle (l : Layout) (a : Nat) : Nat :=
  let x := a / 2 ^ 13 % 256
  a - a / 32 % 256 * 32 + ((a / 32 % 256) ^^^ (l.swz &&& x)) * 32

/-- Address of an element (R73): exact arithmetic, then modulo 2^57, then the swizzle. -/
def Layout.address (l : Layout) (idx : List Int) : Nat :=
  let term (k : Nat) : Int :=
    if k = 0 ∧ l.efmt = 3 then idx.getD 0 0 / 2 else idx.getD k 0 * l.stride.getD k 0
  let sum := ((List.range (l.ndim + 1)).map term).foldl (· + ·) 0
  l.swizzle ((((l.base : Int) + sum) % 2 ^ 57).toNat)

/-- The nibble of an E2M1 element: its high half (R73). -/
def Layout.nibble (_l : Layout) (idx : List Int) : Bool := idx.getD 0 0 % 2 == 1

/-- The fill value of `n` bytes (R180): zeros, or the canonical quiet NaN repeated. -/
def Layout.fillBytes (l : Layout) (n : Nat) : List Byte :=
  if l.fill = false ∨ fmtNan l.efmt = 0 then List.replicate n 0
  else (List.range n).map fun i => BitVec.ofNat 8 (fmtNan l.efmt / 256 ^ (i % fmtBytes l.efmt))

end Sys2Proof.Machine
end

