-- ==== Sys2Proof/Machine/Memory.lean ====
section
/-! DEFINITION. Memory: translation, where a byte lives, the core cache, reads and writes (R140 to R163,
R388 to R395). -/

namespace Sys2Proof.Machine

/-- A refused access: its cause and %trapinfo. -/
structure MemFail where
  cause : Nat
  info : Word
  deriving DecidableEq, Repr

/-- Causes 0x0A and 0x0B: address, level and reason (R164, R391). -/
def memFail (cause addr level reason : Nat) : MemFail :=
  ⟨cause, word (addr % 2 ^ 57 + 2 ^ 57 * level + 2 ^ 60 * reason)⟩

/-! ### Translation -/

/-- Levels of a walk from the root down: level, lowest index bit, index bits, alignment of the next table. -/
def walkLevels : List (Nat × Nat × Nat × Nat) :=
  [(3, 37, 11, 2048), (2, 29, 8, 2048), (1, 21, 8, 256), (0, 16, 5, 1)]

/-- A walk from a table down (R388, R389); the failure is the level and the reason of R391. -/
def State.walkFrom (s : State) (part va : Nat) : List (Nat × Nat × Nat × Nat) → Nat → Except (Nat × Nat) Trans
  | [], _ => .error (0, 1)
  | (lvl, lo, n, align) :: rest, table =>
    let e := s.tableWord (s.pcb part).key (table + 8 * (va / 2 ^ lo % 2 ^ n))
    let addr := e / 256 % 2 ^ 48 * 256
    if e % 2 = 0 then .error (lvl, 1)
    else if e / 64 % 4 ≠ 0 ∨ e / 2 ^ 56 % 256 ≠ 0 then .error (lvl, 2)
    else if e / 2 % 2 = 1 then
      if lvl = 0 then .error (lvl, 2)
      else if addr % align ≠ 0 ∨ Config.hbmSize ≤ addr then .error (lvl, 3)
      else s.walkFrom part va rest addr
    else if addr % 2 ^ lo ≠ 0 ∨ (e / 32 % 2 = 0 ∧ Config.hbmSize ≤ addr) then .error (lvl, 3)
    else .ok ⟨part, va / 2 ^ lo * 2 ^ lo, 2 ^ lo, addr, e / 4 % 2 == 1, e / 8 % 2 == 1, e / 16 % 2 == 1,
      e / 32 % 2 == 1⟩

/-- A walk of a partition's tables (R388). -/
def State.walk (s : State) (part va : Nat) : Except (Nat × Nat) Trans :=
  if va / 2 ^ 48 ≠ 0 then .error (3, 4) else s.walkFrom part va walkLevels (4096 * (s.pcb part).troot)

/-- Addresses of the table entries that a walk reads (R388, R389). -/
def State.walkReads (s : State) (part va : Nat) : List (Nat × Nat × Nat × Nat) → Nat → List Nat
  | [], _ => []
  | (lvl, lo, n, align) :: rest, table =>
    let a := table + 8 * (va / 2 ^ lo % 2 ^ n)
    let e := s.tableWord (s.pcb part).key a
    let addr := e / 256 % 2 ^ 48 * 256
    a :: (if e % 4 = 3 ∧ e / 64 % 4 = 0 ∧ e / 2 ^ 56 % 256 = 0 ∧ lvl ≠ 0 ∧ addr % align = 0 ∧ addr < Config.hbmSize then
      s.walkReads part va rest addr
    else [])

/-- The cached translation of an address, if there is one (R392). -/
def State.cachedTrans (s : State) (cl part va : Nat) : Option Trans :=
  (s.cluster cl).tcache.find? fun t => t.part == part && decide (t.base ≤ va ∧ va < t.base + t.size)

/-- A translation put first in the cache of a cluster; the least recently used leaves it (R392). -/
def State.cacheTrans (s : State) (cl : Nat) (t : Trans) : State :=
  let c := s.cluster cl
  s.setCluster cl { c with tcache := (t :: c.tcache.filter (fun u => u != t)).take 2048 }

/-- A translation dropped from the cache of a cluster. -/
def State.dropTrans (s : State) (cl : Nat) (t : Trans) : State :=
  let c := s.cluster cl
  s.setCluster cl { c with tcache := c.tcache.filter fun u => u != t }

/-! ### Charges for moving bytes (R9, R409) -/

/-- The byte lies outside every cluster, so the on-die network may carry it. -/
def Loc.far : Loc → Bool
  | .scratch _ _ => false
  | .cluster _ _ => false
  | .hbm _ => true
  | .direct _ => true
  | .host _ => true

/-- The home that a location names: a byte of HBM has one, whatever the page it is reached through (R160, R161). -/
def Loc.home : Loc → Loc
  | .direct pa => .hbm pa
  | l => l

/-- The 64-byte line of HBM that a location lies in (R399). -/
def Loc.line : Loc → Option Nat
  | .hbm pa => some (pa / 64)
  | .direct pa => some (pa / 64)
  | _ => none

/-- Total charge for moving the bytes of some locations, the on-die network apart (R409). -/
def chargeOf (die : Nat) (ls : List Loc) : Nat := (ls.map (locCharge die)).foldl (· + ·) 0

/-- Charges a partition for bytes that move between a die and some locations; the clusters that far bytes cross are a free
number (R409, log 12). -/
def State.chargeMove (s : State) (part die : Nat) (ls : List Loc) : State :=
  let far := (ls.filter Loc.far).length
  let tag := (s.pcb part).tag
  if far = 0 then s.chargeTag tag (chargeOf die ls)
  else (s.chargeTag tag (chargeOf die ls)).chargeNet tag far

/-- Charges the context of a core for bytes that it moves (R409). -/
def State.chargeLocs (s : State) (k : Nat) (ls : List Loc) : State := s.chargeMove (s.core k).part (dieOf k) ls

/-- Locations of a run of HBM. -/
def hbmRun (pa n : Nat) : List Loc := (List.range n).map fun i => .hbm (pa + i)

/-- A walk by the walker of a cluster's stack, with the charge for the entries it reads (R393, R409). -/
def State.chargedWalk (s : State) (cl part va : Nat) : State :=
  if va / 2 ^ 48 ≠ 0 then s
  else s.chargeMove part (dieOf (16 * cl)) ((s.walkReads part va walkLevels (4096 * (s.pcb part).troot)).flatMap fun a => hbmRun a 8)

/-- Translates an address for a cluster: from its cache, else by a walk whose success is cached (R392, R393). -/
def State.translate (s : State) (cl part va : Nat) : State × Except (Nat × Nat) Trans :=
  match s.cachedTrans cl part va with
  | some t => (s.cacheTrans cl t, .ok t)
  | none =>
    match s.walk part va with
    | .ok t => ((s.chargedWalk cl part va).cacheTrans cl t, .ok t)
    | .error e => (s.chargedWalk cl part va, .error e)

/-- What an access needs of its page, and the arrival number of its issue where that came before. -/
structure Need where
  rd : Bool
  wr : Bool
  atomic : Bool
  host : Bool
  issued : Option Nat
  deriving DecidableEq, Repr

/-- The rights of R390, after translation. -/
def pageRights (va : Nat) (n : Need) (t : Trans) : Option MemFail :=
  if t.host ≠ n.host then some (memFail 0x0B va 0 6)
  else if (n.rd && !t.rd) || (n.wr && !t.wr) then some (memFail 0x0B va 0 5)
  else if n.atomic && n.host && !t.sa then some (memFail 0x0B va 0 7)
  else none

/-- A location in the page (R160, R389). -/
def Trans.loc (t : Trans) (va : Nat) : Loc :=
  if t.host then .host (t.pa + (va - t.base))
  else if t.sa then .direct (t.pa + (va - t.base))
  else .hbm (t.pa + (va - t.base))

/-- The rights of a translated piece (R390). A leaf that refuses leaves the cache, so the retried access walks again
(R392). -/
def State.pageCheck (s : State) (cl va : Nat) (need : Need) (t : Trans) : State × Option MemFail :=
  match pageRights va need t with
  | some f => (s.dropTrans cl t, some f)
  | none => (s, none)

/-- The bytes of a virtual access of at most two pages: both are translated before either's rights are tested, and both
pass before any byte is performed (R176, R390). Where the second page alone fails, %trapinfo names its first address,
which R164 leaves open (log 69). -/
def State.locateVirtual (s : State) (cl part va n : Nat) (need : Need) : State × Except MemFail (List Loc) :=
  match s.translate cl part va with
  | (s1, .error (l, r)) => (s1, .error (memFail 0x0A va l r))
  | (s1, .ok t) =>
    if va + n ≤ t.base + t.size then
      match s1.pageCheck cl va need t with
      | (s2, some f) => (s2, .error f)
      | (s2, none) => (s2, .ok ((List.range n).map fun i => t.loc (va + i)))
    else
      let vb := t.base + t.size
      match s1.translate cl part (vb % 2 ^ 57) with
      | (s2, .error (l, r)) => (s2, .error (memFail 0x0A vb l r))
      | (s2, .ok u) =>
        match s2.pageCheck cl va need t with
        | (s3, some f) => (s3, .error f)
        | (s3, none) =>
          match s3.pageCheck cl vb need u with
          | (s4, some f) => (s4, .error f)
          | (s4, none) => (s4, .ok ((List.range n).map fun i => if va + i < vb then t.loc (va + i) else u.loc (va + i)))

/-- Segments of the core cache for a tile count (R146). -/
def cacheSegments (n : Nat) : Nat := max 2 (min 8 (32 - n))

/-- Segments of core scratch for a tile count (R146). -/
def scratchSegments (n : Nat) : Nat := 64 - n - cacheSegments n

/-- Bytes of a core's scratch (R141). -/
def Core.scratchSize (c : Core) : Nat := scratchSegments c.ntiles * 32768

/-- Bytes of core scratch that an access reaches which was issued at an arrival number, or is now: one issued before the last change
of the tile count still reaches what that change removed (R146). -/
def Core.scratchSizeAt (c : Core) (issued : Option Nat) : Nat :=
  match c.resized, issued with
  | some (b, z), some n => if n < b then max z c.scratchSize else c.scratchSize
  | _, _ => c.scratchSize

/-- Mode of a bank as accesses find it: a shadow or switching scratch bank is none (R148, R334). -/
def Cluster.mode (c : Cluster) (b : Nat) : Option Nat :=
  if 64 ≤ b + c.shadow then none
  else
    match tfind c.bankBusy b with
    | some _ => if tget 0 c.bankMode b = 2 then some 2 else none
    | none => some (tget 0 c.bankMode b)

/-- Every bank of a run of cluster scratch is in scratch mode (R141). -/
def Cluster.scratchBanks (c : Cluster) (addr n : Nat) : Bool :=
  decide (addr + n ≤ 33554432) && c.mode (addr / 524288) == some 1 &&
    c.mode ((addr + n - 1) / 524288) == some 1

/-- The bytes of an element of a layout's space, spaces 0, 1, 2, 4 and 6 (R140, R141, steps 5 to 7 of R176). -/
def State.locate (s : State) (k space addr n : Nat) (need : Need) : State × Except MemFail (List Loc) :=
  let run (f : Nat → Loc) : Except MemFail (List Loc) := .ok ((List.range n).map fun i => f (addr + i))
  match space with
  | 0 => (s, if addr + n ≤ (s.core k).scratchSizeAt need.issued then run (.scratch k) else .error (memFail 0x0B addr 0 0))
  | 1 => (s, if addr + n ≤ (s.core (twinOf k)).scratchSizeAt need.issued then run (.scratch (twinOf k))
             else .error (memFail 0x0B addr 0 0))
  | 2 => (s, if (s.cluster (clusterOf k)).scratchBanks addr n then run (.cluster (clusterOf k))
             else .error (memFail 0x0B addr 0 0))
  | _ => s.locateVirtual (clusterOf k) (s.core k).part addr n { need with host := space == 6 }

/-! ### Bytes at their homes -/

/-- A memory is in its canonical form: addresses strictly rising, and no entry equal to what an unlisted address reads
as. -/
abbrev Memory.wf (m : List Host.Cell) : Prop := TableWf 0 m

/-- The device's memories are in canonical form: HBM with the keys and errors of its bytes, and the host's memory. -/
abbrev State.memoryWf (s : State) : Prop :=
  Memory.wf s.hbm ∧ Memory.wf s.host ∧ TableWf 0 s.hbmKey ∧ TableWf false s.poison

/-- The memory key of the partition of a core (R399). -/
def State.keyOf (s : State) (k : Nat) : Nat := (s.pcb (s.core k).part).key

/-- The byte at the home of a location (R161). -/
def State.homeGet (s : State) (key : Nat) : Loc → Byte
  | .scratch k o => tget 0 (s.core k).scratch o
  | .cluster c o => tget 0 (s.cluster c).scratch o
  | .hbm pa => s.hbmGet key pa
  | .direct pa => s.hbmGet key pa
  | .host a => tget 0 s.host a

/-- Writes a byte at its home; an uncorrectable error there is gone. -/
def State.homeSet (s : State) (key : Nat) (l : Loc) (b : Byte) : State :=
  match l with
  | .scratch k o =>
    s.setCore k { s.core k with scratch := tset 0 (s.core k).scratch o b, scratchBad := tset false (s.core k).scratchBad o false }
  | .cluster c o =>
    s.setCluster c { s.cluster c with
      scratch := tset 0 (s.cluster c).scratch o b, scratchBad := tset false (s.cluster c).scratchBad o false }
  | .hbm pa => s.hbmPut key pa [b]
  | .direct pa => s.hbmPut key pa [b]
  | .host a => { s with host := tset 0 s.host a b }

/-- Writes bytes at their homes, in order. -/
def State.homeSetAll (s : State) (key : Nat) : List (Loc × Byte) → State
  | [] => s
  | (l, b) :: r => (s.homeSet key l b).homeSetAll key r

/-- A location holds an uncorrectable error at its home (R179), or is a host address that answers with an error
(R163). -/
def State.locBad (s : State) : Loc → Bool
  | .scratch k o => tget false (s.core k).scratchBad o
  | .cluster c o => tget false (s.cluster c).scratchBad o
  | .hbm pa => tget false s.poison pa
  | .direct pa => tget false s.poison pa
  | .host a => tget false s.hostBad a

/-! ### The core cache (R144, R152 to R161) -/

/-- A run of locations with each byte that neighbouring elements share, as 4-bit elements do, named once: it moves once (R409). -/
def onceEach : List Loc → List Loc
  | [] => []
  | [l] => [l]
  | l :: m :: r => if l = m then onceEach (m :: r) else l :: onceEach (m :: r)

/-- Addresses of the 32-byte sector an address of HBM lies in (R150). -/
def sectorOf (pa : Nat) : List Nat := (List.range 32).map (pa / 32 * 32 + ·)

/-- The cache holds every byte of the sector of an address. -/
def Core.wholeSector (c : Core) (pa : Nat) : Bool := (sectorOf pa).all fun a => (tfind c.cache a).isSome

/-- The copy of a byte of HBM that a core's cache supplies. A clean byte counts only with its whole sector, which one read of
the home brought in, so that no read mixes a write with bytes older than it (R150). -/
def Core.cached (c : Core) (pa : Nat) : Option CacheByte :=
  match tfind c.cache pa with
  | some b => if b.dirty || c.wholeSector pa then some b else none
  | none => none

/-- The cached copy of a location in a core's cache. A page with the system-atomic attribute is not cached (R160), and a read
through it still finds what the core has stored to the byte by another page and not yet written home (R152). -/
def Core.copyOf (c : Core) : Loc → Option CacheByte
  | .hbm pa => c.cached pa
  | .direct pa => (tfind c.cache pa).filter fun b => b.dirty
  | _ => none

/-- The byte a core's plain read of a location returns: its cached copy, else the home. -/
def State.coreGet (s : State) (k : Nat) (l : Loc) : Byte :=
  match (s.core k).copyOf l with
  | some b => b.value
  | none => s.homeGet (s.keyOf k) l

/-- A core's read of a location meets an uncorrectable error in the copy that supplies it: the cached one, or else the
home (R179). -/
def State.readBad (s : State) (k : Nat) (l : Loc) : Bool :=
  match (s.core k).copyOf l with
  | some b => b.bad
  | none => s.locBad l

/-- Writes the dirty bytes of a list of cache entries of a core home, with their charge (R409). -/
def State.writeBack (s : State) (k key : Nat) : List (Nat × CacheByte) → State
  | [] => s
  | (pa, b) :: r => (if b.dirty then (s.hbmPut key pa [b.value]).chargeLocs k [.hbm pa] else s).writeBack k key r

/-- The partition of a core is reset if an uncorrectable error was found outside its streams' reads (R386). -/
def State.resetIf (s : State) (k : Nat) (bad : Bool) : State := if bad then s.resetLater (s.core k).part else s

/-- Writes home the dirty bytes of a core's cache that p selects; they stay as clean copies. An uncorrectable error in a line
written back resets the partition (R386). -/
def State.flush (s : State) (k : Nat) (p : Nat → CacheByte → Bool) : State :=
  let c := s.core k
  let out := c.cache.filter fun x => p x.1 x.2
  let s1 := (s.resetIf k (out.any fun x => x.2.dirty && x.2.bad)).writeBack k (s.keyOf k) out
  s1.setCore k { s1.core k with
    cache := c.cache.map fun x => (x.1, if p x.1 x.2 then { x.2 with dirty := false, binds := [] } else x.2) }

/-- Discards the clean bytes of a core's cache that p selects. -/
def State.discard (s : State) (k : Nat) (p : Nat → CacheByte → Bool) : State :=
  let c := s.core k
  s.setCore k { c with cache := c.cache.filter fun x => x.2.dirty || !p x.1 x.2 }

/-- The address lies in a sector of one of some locations (R150). -/
def inSectors (ls : List Loc) (pa : Nat) : Bool :=
  ls.any fun l => match l with
    | .hbm q => q / 32 == pa / 32
    | .direct q => q / 32 == pa / 32
    | _ => false

/-- Sectors of the HBM bytes among some locations, each once (R150). -/
def sectorsOf : List Loc → List Nat
  | [] => []
  | l :: r =>
    let t := sectorsOf r
    match l with
    | .hbm pa => if t.contains (pa / 32) then t else (pa / 32) :: t
    | _ => t

/-- Sectors of HBM that the core cache holds something of, in order. -/
def Core.heldSectors (c : Core) : List Nat :=
  c.cache.foldr (fun x l => if l.head? = some (x.1 / 32) then l else (x.1 / 32) :: l) []

/-- The core cache has room for the sectors of some locations beside what it holds: a segment holds 1,024 sectors (R15, R146). -/
def Core.cacheRoom (c : Core) (ls : List Loc) : Bool :=
  let held := c.heldSectors
  decide (held.length + ((sectorsOf ls).filter fun n => !held.contains n).length ≤ 1024 * cacheSegments c.ntiles)

/-- Locations of the bytes of a sector. -/
def sectorLocs (n : Nat) : List Loc := hbmRun (32 * n) 32

/-- A byte of a sector, other than those of a stream's read, holds an uncorrectable error as the sector is refilled. -/
def State.refillBad (s : State) (ls : List Loc) (n : Nat) : Bool := (sectorLocs n).any fun l => !ls.contains l && s.locBad l

/-- Writes back and discards what a core caches of the sectors of some locations, as an atomic or a release access of the
core does (R153, R161; log 8). -/
def State.syncSectors (s : State) (k : Nat) (ls : List Loc) : State :=
  (s.flush k fun pa _ => inSectors ls pa).discard k fun pa _ => inSectors ls pa

/-- Puts a sector into a core's cache as one read of its home finds it, with the charge of that read (R409); dirty bytes stay as
the core has them. A byte of `ls`, which a stream accesses, is not taken where it holds an uncorrectable error (R179); any other
such byte resets the partition (R386). -/
def State.refill (s : State) (k : Nat) (ls : List Loc) (n : Nat) : State :=
  let s1 := (s.resetIf k (s.refillBad ls n)).chargeLocs k (sectorLocs n)
  let c := s1.core k
  let dirty (pa : Nat) : Bool := match tfind c.cache pa with
    | some b => b.dirty
    | none => false
  let clean (x : Nat × CacheByte) : Bool := !x.2.dirty && x.1 / 32 == n
  let fresh := ((List.range 32).map (32 * n + ·)).filter fun pa => !dirty pa && !s1.locBad (.hbm pa)
  s1.setCore k { c with
    cache := fresh.foldl (fun t pa => tput t pa ⟨s1.homeGet (s1.keyOf k) (.hbm pa), false, false, []⟩) (c.cache.filter fun x => !clean x) }

/-- Refills several sectors. -/
def State.refillAll (s : State) (k : Nat) (ls : List Loc) : List Nat → State
  | [] => s
  | n :: r => (s.refill k ls n).refillAll k ls r

/-- Writes back what a core caches of the sectors of some locations, and reads those it holds from their homes again, as an
acquire access does (R153). -/
def State.refreshSectors (s : State) (k : Nat) (ls : List Loc) : State :=
  let s1 := s.flush k fun pa _ => inSectors ls pa
  s1.refillAll k ls ((sectorsOf ls).filter fun n => (s1.core k).wholeSector (32 * n))

/-- Discards the clean copies of the sectors that were read through a page with the system-atomic attribute: a later read by
another page is then no older (R154). -/
def State.seenDirect (s : State) (k : Nat) (ls : List Loc) : State :=
  let d := ls.filter fun l => match l with
    | .direct _ => true
    | _ => false
  if d.isEmpty then s else s.discard k fun pa _ => inSectors d pa

/-- Writes back and empties a core's cache (R146). -/
def State.emptyCache (s : State) (k : Nat) : State :=
  (s.flush k fun _ _ => true).discard k fun _ _ => true

/-- A number put into a list that has no repeats. -/
def addTo (n : Nat) (l : List Nat) : List Nat := if l.contains n then l else l ++ [n]

/-- The cache of a core whose byte has been stored at its home: a copy of the byte agrees with it. -/
def Core.cacheThrough (c : Core) (pa : Nat) (b : Byte) : Core :=
  match tfind c.cache pa with
  | some _ => { c with cache := tput c.cache pa ⟨b, false, false, []⟩ }
  | none => c

/-- A core's store of a byte at its home; a copy that the core holds of it agrees with the home. -/
def State.coreThrough (s : State) (k : Nat) (l : Loc) (b : Byte) : State :=
  let s1 := s.homeSet (s.keyOf k) l b
  match l with
  | .hbm pa => s1.setCore k ((s1.core k).cacheThrough pa b)
  | .direct pa => s1.setCore k ((s1.core k).cacheThrough pa b)
  | _ => s1

/-- A plain store of a byte stays in the core's cache: the access may allocate there, or the cache holds something of its
sector already (R144). All bytes of a sector answer alike, so that a store is not split (R150). -/
def Core.keeps (c : Core) (alloc : Bool) (l : Loc) : Bool :=
  match l with
  | .hbm pa => alloc || (sectorOf pa).any fun a => (c.cached a).isSome
  | _ => false

/-- The cache of a core without the clean bytes of a sector that it does not hold whole: stores cannot make them part of a whole
sector again (R154). -/
def Core.dropPartial (c : Core) (pa : Nat) : Tbl CacheByte :=
  if c.wholeSector pa then c.cache else c.cache.filter fun x => x.2.dirty || x.1 / 32 != pa / 32

/-- Bindings of the stores to a cached byte since it was last written home. -/
def Core.bindsAt (c : Core) (pa : Nat) : List Nat := ((tfind c.cache pa).map fun x => x.binds).getD []

/-- A core's plain store of a byte: into its cache under a binding, or home. -/
def State.coreSet (s : State) (k : Nat) (alloc : Bool) (bind : Nat) (l : Loc) (b : Byte) : State :=
  let c := s.core k
  match l with
  | .hbm pa =>
    if c.keeps alloc l then s.setCore k { c with cache := tput (c.dropPartial pa) pa ⟨b, true, false, addTo bind (c.bindsAt pa)⟩ }
    else s.coreThrough k l b
  | _ => s.coreThrough k l b

/-- Stores bytes in order. -/
def State.coreSetAll (s : State) (k : Nat) (alloc : Bool) (bind : Nat) : List (Loc × Byte) → State
  | [] => s
  | (l, b) :: r => (s.coreSet k alloc bind l b).coreSetAll k alloc bind r

/-- Stores bytes at their homes, in order. -/
def State.coreThroughAll (s : State) (k : Nat) : List (Loc × Byte) → State
  | [] => s
  | (l, b) :: r => (s.coreThrough k l b).coreThroughAll k r

/-- Keeps the sectors of what a core has read, where the access may allocate in its cache (R144, R150). -/
def State.fillCache (s : State) (k : Nat) (alloc : Bool) (ls : List Loc) : State :=
  if alloc then s.refillAll k ls ((sectorsOf ls).filter fun n => !(s.core k).wholeSector (32 * n)) else s

/-- What a core reads at some locations, as a little-endian number. -/
def State.coreRead (s : State) (k : Nat) (ls : List Loc) : Nat := leNat (ls.map (s.coreGet k))

/-! ### Full/empty words (R151) -/

/-- The word of a location is full (R151). -/
def State.wordFull (s : State) : Loc → Bool
  | .scratch k o => tget false (s.core k).scratchFull (o / 8)
  | .cluster c o => tget false (s.cluster c).scratchFull (o / 8)
  | _ => false

/-- Sets the full/empty bit of the word of a location. -/
def State.setWordFull (s : State) (l : Loc) (b : Bool) : State :=
  match l with
  | .scratch k o => s.setCore k { s.core k with scratchFull := tset false (s.core k).scratchFull (o / 8) b }
  | .cluster c o => s.setCluster c { s.cluster c with scratchFull := tset false (s.cluster c).scratchFull (o / 8) b }
  | _ => s

/-! ### Space 4 of a partition, for the headframe, the host and the save hardware -/

/-- Bytes of a partition's space 4 as their home holds them; `cl` names the translation cache used. -/
def State.peekVirtual (s : State) (cl part va n : Nat) : State × Except MemFail (List Byte) :=
  match s.locateVirtual cl part va n ⟨true, false, false, false, none⟩ with
  | (s1, .error f) => (s1, .error f)
  | (s1, .ok ls) => (s1, .ok (ls.map (s1.homeGet (s1.pcb part).key)))

/-- Bytes of a partition's space 4 that the I/O die reads at their home (R159, R343, R396), with their charge (R409), and
whether one of them holds an uncorrectable error (R386). -/
def State.readChecked (s : State) (cl part va n : Nat) : State × Except MemFail (List Byte × Bool) :=
  match s.locateVirtual cl part va n ⟨true, false, false, false, none⟩ with
  | (s1, .error f) => (s1, .error f)
  | (s1, .ok ls) => (s1.chargeMove part ioDie ls, .ok (ls.map (s1.homeGet (s1.pcb part).key), ls.any s1.locBad))

/-- Reads `n` bytes of a partition's space 4 at the home. -/
def State.readVirtual (s : State) (cl part va n : Nat) : State × Except MemFail (List Byte) :=
  match s.readChecked cl part va n with
  | (s1, .error f) => (s1, .error f)
  | (s1, .ok (bs, _)) => (s1, .ok bs)

/-- Writes bytes of a partition's space 4 at the home, from the I/O die. -/
def State.writeVirtual (s : State) (cl part va : Nat) (bs : List Byte) : State × Option MemFail :=
  match s.locateVirtual cl part va bs.length ⟨false, true, false, false, none⟩ with
  | (s1, .error f) => (s1, some f)
  | (s1, .ok ls) => ((s1.chargeMove part ioDie ls).homeSetAll (s1.pcb part).key (ls.zip bs), none)

end Sys2Proof.Machine
end

