-- ==== Sys2Proof/Machine/Fetch.lean ====
section
/-! DEFINITION. Which streams may move, fetching a block's header and its parcels (R76 to R84, R103, R175, R390). -/

namespace Sys2Proof.Machine

/-- The core runs a point and nothing stops it as a whole: it is not halted, suspended or frozen, and no trap waits
to be entered. -/
def Core.live (c : Core) : Bool :=
  !c.halted && !c.halting && !c.failed && c.point.isSome && c.raised.isNone && !c.suspended && !c.frozen

/-- The core's units go on with the operations in progress: nothing stops the core, or a HALT waits for them (R216,
R364, R372). -/
def Core.unitsRun (c : Core) : Bool :=
  !c.halted && !c.failed && !c.suspended && !c.frozen && (c.halting || (c.raised.isNone && !c.priv && !c.stop))

/-- Stream st of the core may move (R114, R328, R364, R372). -/
def Core.runnable (c : Core) (st : StreamId) : Bool :=
  c.live && (if c.priv then st == .c else !c.stop && !(c.stream st).ended && (c.stream st).held.isNone)

/-- Stream st of core k may move, and its clock runs. -/
def State.runnable (s : State) (k : Nat) (st : StreamId) : Bool := (s.core k).runnable st && s.clocked k

/-- The units of core k go on with the operations in progress, and its clock runs. -/
def State.unitsRun (s : State) (k : Nat) : Bool := (s.core k).unitsRun && s.clocked k

/-- An operation of core k that has ended may complete: the core is not halted, and its clock runs. -/
def State.completes (s : State) (k : Nat) : Bool := !(s.core k).halted && s.clocked k

/-- A halfword of code, at its home: fetch does not snoop stores (R81, R390). -/
def State.fetchHalf (s : State) (k va : Nat) : State × Except MemFail (Byte × Byte) :=
  match s.peekVirtual (clusterOf k) (s.core k).part va 2 with
  | (s1, .ok [b0, b1]) => (s1, .ok (b0, b1))
  | (s1, .ok _) => (s1, .error (memFail 0x0A va 0 1))
  | (s1, .error f) => (s1, .error f)

/-- Charges a core for the bytes of a block that it fetches, as far as their pages translate (R409). -/
def State.chargeBlock (s : State) (k hdr len : Nat) : State :=
  match s.locateVirtual (clusterOf k) (s.core k).part hdr (4 + 2 * len) ⟨true, false, false, false, none⟩ with
  | (s1, .ok ls) => s1.chargeLocs k ls
  | (_, .error _) => s

/-- Two halfwords of code, the word with W[31:16] first (R77). -/
def State.fetchWord (s : State) (k va : Nat) : State × Except MemFail Nat :=
  match s.fetchHalf k va with
  | (s1, .error f) => (s1, .error f)
  | (s1, .ok (b0, b1)) =>
    match s1.fetchHalf k ((va + 2) % 2 ^ 57) with
    | (s2, .error f) => (s2, .error f)
    | (s2, .ok (b2, b3)) => (s2, .ok (65536 * half b0 b1 + half b2 b3))

/-- A word of CALL or CALLR, whatever its must-be-zero fields hold: P 0, class BR, condition 7 or 10 (R83, R90). It must be
the last parcel of its body (R79, reason 7). -/
def isCallWord (w : Nat) : Bool := w / 2 ^ 26 == 35 && (w / 2 ^ 12 % 16 == 7 || w / 2 ^ 12 % 16 == 10)

/-- What stands at a stream's position: an instruction, or the cause and %trapinfo it raises (R79, R82, R103). A parcel of 32 bits that
the end of its body cuts off shows its first halfword in %trapinfo[31:16] and 0 below, since the halfword past the body is not
read. A branch whose must-be-zero fields are not zero raises 0x01, whatever stands at its target (both log 66). -/
def State.fetchParcel (s : State) (k : Nat) (p : Pos) : State × Except MemFail Instr :=
  let va := (p.hdr + 4 + 2 * p.off) % 2 ^ 57
  match s.fetchHalf k va with
  | (s1, .error f) => (s1, .error f)
  | (s1, .ok (b0, b1)) =>
    let h := half b0 b1
    if h < 32768 then
      match decode [b0, b1] with
      | .ok (i, _) => (s1, .ok i)
      | .error _ => (s1, .error ⟨0x01, word h⟩)
    else if p.len ≤ p.off + 1 then
      (s1, .error ⟨0x03, malformed (if h / 256 = 255 then 1 else 3) (65536 * h)⟩)
    else
      match s1.fetchHalf k ((va + 2) % 2 ^ 57) with
      | (s2, .error f) => (s2, .error f)
      | (s2, .ok (b2, b3)) =>
        let w := 65536 * h + half b2 b3
        if isCallWord w && p.off + 2 != p.len then (s2, .error ⟨0x03, malformed 7 w⟩) else
        match decode [b0, b1, b2, b3] with
        | .ok (i, _) => (s2, .ok i)
        | .error .headerInBody => (s2, .error ⟨0x03, malformed 1 w⟩)
        | .error _ => (s2, .error ⟨0x01, word w⟩)

/-- A word is a block header: extended class 0xF (R76). -/
def isHeader (w : Nat) : Bool := w / 2 ^ 24 % 256 == 255

/-- The reason of R79 a header raises on entry, 0 for none. A header that meets several of the reasons 2, 4 and 5 reports
the first in that order, which R79 leaves open (log 66). -/
def headerReason (w : Nat) : Nat :=
  let mode := w / 2 ^ 10 % 4
  if w / 2 ^ 12 % 4096 = 0 then 2
  else if mode = 3 then 4
  else if (mode = 0 ∧ w % 1024 ≠ 0) ∨ (mode = 2 ∧ w / 32 % 32 ≠ 0) then 5
  else 0

/-- The register a MODE 10 header reads (R76). -/
def headerReg (w : Nat) : Option Reg := if w / 2 ^ 10 % 4 = 2 then some (BitVec.ofNat 5 w) else none

/-- Executions of the body a header fixes on entry (R76, R78). -/
def headerCount (w : Nat) (regs : Reg → Word) : Nat :=
  match w / 2 ^ 10 % 4 with
  | 0 => 1
  | 1 => if w % 1024 = 0 then 1024 else w % 1024
  | _ => (regs (BitVec.ofNat 5 w)).toNat % 2 ^ 32

/-- Whether a halfword offset begins a parcel, walking the body from an offset on (R366); a fetch on the way may fail
(R390). -/
def State.beginsParcel (s : State) (k hdr goal : Nat) : Nat → Nat → State × Except MemFail Bool
  | 0, off => (s, .ok (off == goal))
  | fuel + 1, off =>
    if off = goal then (s, .ok true)
    else if goal < off then (s, .ok false)
    else
      match s.fetchHalf k ((hdr + 4 + 2 * off) % 2 ^ 57) with
      | (s1, .ok (b0, b1)) => s1.beginsParcel k hdr goal fuel (off + if half b0 b1 < 32768 then 1 else 2)
      | (s1, .error f) => (s1, .error f)

/-- A stream resumed inside a block finds its place again: a place that begins no parcel raises cause 0x03, reason 6 (R366). Where an
earlier parcel cannot be fetched the place stands as it is, and the parcel there is fetched next: a trap names the parcel whose own
fetch fails (R390, log 92). -/
def State.resumeBlock (s : State) (k : Nat) (st : StreamId) (p : Pos) (w len : Nat) : State :=
  if len ≤ p.off then s.raiseAt k st 0x03 (malformed 6 w) p.hdr p.off
  else
    match s.beginsParcel k p.hdr p.off p.off 0 with
    | (s1, .error _) => s1.setPos k st { p with len := len, entry := .inside }
    | (s1, .ok b) =>
      if b then (s1.chargeBlock k p.hdr len).setPos k st { p with len := len, entry := .inside }
      else s1.raiseAt k st 0x03 (malformed 6 w) p.hdr p.off

/-- A stream at a header enters its block, or a resumed stream finds its block again (R78, R79, R366). A header that cannot be fetched is
entered afresh later (R390). A fall-through to
a position that holds no header raises reason 6 with that position, where the next header should stand, as the
position of the trap; R79 says only that it is raised at the end of the body (log 66). -/
def State.enterBlock (s : State) (k : Nat) (st : StreamId) : State :=
  let p := s.pos k st
  if p.hdr % 4 ≠ 0 then s.raiseAt k st 0x03 (malformed 6 0) p.hdr 0
  else
    match s.fetchWord k p.hdr with
    | (s1, .error f) => (s1.setPos k st (Pos.enter p.hdr)).raiseAt k st f.cause f.info p.hdr 0
    | (s1, .ok w) =>
      let len := w / 2 ^ 12 % 4096
      if isHeader w = false then s1.raiseAt k st 0x03 (malformed 6 w) p.hdr p.off
      else if headerReason w ≠ 0 then s1.raiseAt k st 0x03 (malformed (headerReason w) w) p.hdr 0
      else if p.entry = .resumed then s1.resumeBlock k st p w len
      else
        let enter (s : State) : State :=
          (s.chargeBlock k p.hdr len).setPos k st { p with off := 0, len := len, reps := headerCount w (s.reg k st), entry := .inside }
        match headerReg w with
        | some r =>
          if (s1.core k).pending st r then s1.waitOn k st .register
          else if headerCount w (s1.reg k st) = 0 then s1.setPos k st (Pos.enter { p with len := len }.nextHeader)
          else enter s1
        | none => enter s1

/-- BLOCK_FETCH (R175): a block that the stream's loop buffer does not hold is fetched; a failing fetch raises its
cause. -/
def execBlockFetch (k : Nat) (st : StreamId) (s : State) : Out :=
  if s.runnable k st && (s.pos k st).entry != .inside then .next (s.enterBlock k st) else .next s

/-- The address at which a stream's next parcel stands. -/
def State.fetchAddr (s : State) (k : Nat) (st : StreamId) : Nat :=
  ((s.pos k st).hdr + 4 + 2 * (s.pos k st).off) % 2 ^ 57

end Sys2Proof.Machine
end

