-- ==== Sys2Proof/Machine/Flags.lean ====
section
/-! DEFINITION. Conditions and status bits. Scalar instructions keep no condition flags (R165); the branches compare
registers (R173), and number formats raise the sticky status of R38. -/

namespace Sys2Proof.Machine

/-- The status bits of R38: overflow, invalid, saturation, flush to zero. -/
structure Status where
  ov : Bool := false
  nv : Bool := false
  sat : Bool := false
  fz : Bool := false
  deriving DecidableEq, Repr

/-- No status. -/
def Status.clear : Status := {}

/-- Sticky merge of status bits (R38). -/
def Status.or (a b : Status) : Status := ⟨a.ov || b.ov, a.nv || b.nv, a.sat || b.sat, a.fz || b.fz⟩

/-- Merges the status of a list. -/
def Status.all (l : List Status) : Status := l.foldl Status.or Status.clear

/-- BEQ and SEQ (R167, R173). -/
def condEq (a b : Word) : Bool := a == b

/-- BNE and SNE. -/
def condNe (a b : Word) : Bool := a != b

/-- BLT and SLT: signed. -/
def condLt (a b : Word) : Bool := a.slt b

/-- BGE: signed. -/
def condGe (a b : Word) : Bool := !(a.slt b)

/-- BLTU and SLTU: unsigned. -/
def condLtu (a b : Word) : Bool := a.ult b

/-- BGEU: unsigned. -/
def condGeu (a b : Word) : Bool := !(a.ult b)

end Sys2Proof.Machine
end

