-- ==== Sys2Proof/Machine/Numbers.lean ====
section
/-! DEFINITION. Number formats, exact values and rounding (R27 to R40, R43, R187). -/

namespace Sys2Proof.Machine

/-- An exact value: NaN, infinity, or (-1)^neg * m * 2^e. A zero has a sign. -/
inductive Val where
  | nan (neg : Bool)
  | inf (neg : Bool)
  | fin (neg : Bool) (m : Nat) (e : Int)
  deriving DecidableEq, Repr

/-- +0. -/
def Val.zero : Val := .fin false 0 0

/-- A floating-point format: fraction bits, exponent bits, exponent of its smallest subnormal. -/
structure FloatFmt where
  fbits : Nat
  ebits : Nat
  emin : Int
  deriving DecidableEq, Repr

/-- The floating-point formats (R28 to R31); code 8 stands for the accumulators' FP64. -/
def floatFmt (f : Nat) : FloatFmt :=
  match f with
  | 0 => ⟨23, 8, -149⟩
  | 1 => ⟨7, 8, -133⟩
  | 2 => ⟨3, 4, -9⟩
  | 3 => ⟨1, 2, -1⟩
  | _ => ⟨52, 11, -1074⟩

/-- The format is a floating-point format. -/
def isFloat (f : Nat) : Bool := f ≤ 3 || f == 8

/-- 2^e for an integer exponent, as numerator and denominator. -/
def pow2 (e : Int) : Nat × Nat := if 0 ≤ e then (2 ^ e.toNat, 1) else (1, 2 ^ (-e).toNat)

/-- The value of a code of a floating-point format (R28 to R31). -/
def floatVal (f : Nat) (code : Nat) : Val :=
  let q := floatFmt f
  let frac := code % 2 ^ q.fbits
  let ex := code / 2 ^ q.fbits % 2 ^ q.ebits
  let neg := code / 2 ^ (q.fbits + q.ebits) % 2 == 1
  if (f = 0 ∨ f = 1 ∨ f = 8) ∧ ex = 2 ^ q.ebits - 1 then (if frac = 0 then .inf neg else .nan neg)
  else if f = 2 ∧ ex = 15 ∧ frac = 7 then .nan neg
  else if ex = 0 then .fin neg frac q.emin
  else .fin neg (2 ^ q.fbits + frac) (q.emin + (ex - 1 : Nat))

/-- The code of (-1)^neg * m * 2^e, which the format represents. -/
def floatCode (f : Nat) (neg : Bool) (m : Nat) (e : Int) : Nat :=
  let q := floatFmt f
  let sign := bit neg * 2 ^ (q.fbits + q.ebits)
  if m = 0 then sign
  else
    let k := Nat.log2 m
    let ex := (k : Int) + e
    if ex < q.emin + q.fbits then sign + (if 0 ≤ e - q.emin then m * 2 ^ (e - q.emin).toNat else m / 2 ^ (q.emin - e).toNat)
    else
      let mant := if k ≤ q.fbits then m * 2 ^ (q.fbits - k) else m / 2 ^ (k - q.fbits)
      sign + (ex - (q.emin + q.fbits) + 1).toNat * 2 ^ q.fbits + (mant - 2 ^ q.fbits)

/-- floor(log2(n / d)), n and d positive. -/
def ilog (n d : Nat) : Int :=
  let a : Int := (Nat.log2 n : Int) - Nat.log2 d
  let p := pow2 a
  if d * p.1 ≤ n * p.2 then a else a - 1

/-- Whether a mode rounds a magnitude up, from the quotient and the remainder over the divisor (R36): 0 nearest
even, 1 toward zero, 2 up, 3 down. -/
def roundsUp (mode : Nat) (neg : Bool) (quot rem div : Nat) : Bool :=
  match mode with
  | 0 => decide (div < 2 * rem) || (decide (2 * rem = div) && quot % 2 == 1)
  | 1 => false
  | 2 => !neg && rem != 0
  | _ => neg && rem != 0

/-- n / d as a multiple of 2^q, rounded (R36). -/
def roundAt (mode : Nat) (neg : Bool) (n d : Nat) (q : Int) : Nat :=
  let p := pow2 q
  let num := n * p.2
  let den := d * p.1
  num / den + bit (roundsUp mode neg (num / den) (num % den) den)

/-- n / d rounded to a format's precision with its subnormal spacing and no upper bound (R36): magnitude and
exponent. -/
def roundFloat (f mode : Nat) (neg : Bool) (n d : Nat) : Nat × Int :=
  let q := floatFmt f
  if n = 0 then (0, 0)
  else
    let lsb := max (ilog n d - q.fbits) q.emin
    (roundAt mode neg n d lsb, lsb)

/-- Largest finite magnitude of a format, as m * 2^e. -/
def floatMax (f : Nat) : Nat × Int :=
  match f with
  | 0 => (2 ^ 24 - 1, 104)
  | 1 => (2 ^ 8 - 1, 120)
  | 2 => (7, 6)
  | 3 => (3, 1)
  | _ => (2 ^ 53 - 1, 971)

/-- m * 2^e exceeds the largest finite magnitude. -/
def overMax (f : Nat) (m : Nat) (e : Int) : Bool :=
  let x := floatMax f
  let p := pow2 e
  let q := pow2 x.2
  decide (x.1 * q.1 * p.2 < m * p.1 * q.2)

/-- Code of an infinity of FP32, BF16 or FP64. -/
def infCode (f : Nat) (neg : Bool) : Nat :=
  let q := floatFmt f
  bit neg * 2 ^ (q.fbits + q.ebits) + (2 ^ q.ebits - 1) * 2 ^ q.fbits

/-- Code of a format's largest finite value. -/
def maxCode (f : Nat) (neg : Bool) : Nat := floatCode f neg (floatMax f).1 (floatMax f).2

/-- Code of a NaN with a sign (R35); 0 for a format without one. -/
def nanCode (f : Nat) (neg : Bool) : Nat :=
  match f with
  | 0 => 0x7FC00000 + bit neg * 2 ^ 31
  | 1 => 0x7FC0 + bit neg * 2 ^ 15
  | 2 => 0x7F + bit neg * 2 ^ 7
  | 8 => 0x7FF8000000000000 + bit neg * 2 ^ 63
  | _ => 0

/-- Bits of an integer format's code, its maximum, and the magnitude of its minimum (R33, R37). -/
def intRange (f : Nat) : Nat × Nat × Nat :=
  match f with
  | 4 => (8, 127, 128)
  | 5 => (32, 2147483647, 2147483648)
  | _ => (16, 511, 511)

/-- Two's-complement code of `n` bits. -/
def intCode (n : Nat) (neg : Bool) (m : Nat) : Nat := if neg then (2 ^ n - m) % 2 ^ n else m % 2 ^ n

/-- IEEE 754 overflow of a mode: the largest finite value instead of infinity (R37). -/
def overflowsToMax (mode : Nat) (neg : Bool) : Bool :=
  match mode with
  | 0 => false
  | 1 => true
  | 2 => neg
  | _ => !neg

/-- A finite rational (-1)^neg * n / d brought to a format (R36, R37): code and status. `sat` is the E4M3 saturate
choice. -/
def roundQ (f mode : Nat) (sat : Bool) (neg : Bool) (n d : Nat) : Nat × Status :=
  match f with
  | 2 =>
    if 448 * d < n then (if sat then (maxCode 2 neg, { sat := true }) else (nanCode 2 neg, { ov := true }))
    else
      let r := roundFloat 2 mode neg n d
      (floatCode 2 neg r.1 r.2, { fz := n != 0 && r.1 == 0 })
  | 3 =>
    if 6 * d < n then (maxCode 3 neg, { sat := true })
    else
      let r := roundFloat 3 mode neg n d
      (floatCode 3 neg r.1 r.2, { fz := n != 0 && r.1 == 0 })
  | 4 | 5 | 6 =>
    let q := intRange f
    let lim := if neg then q.2.2 else q.2.1
    if lim * d < n then (intCode q.1 neg lim, { sat := true })
    else (intCode q.1 neg (roundAt mode neg n d 0), {})
  | _ =>
    let r := roundFloat f mode neg n d
    if overMax f r.1 r.2 then
      (if overflowsToMax mode neg then maxCode f neg else infCode f neg, { ov := true })
    else (floatCode f neg r.1 r.2, {})

/-- A value brought to a format (R35 to R37): a NaN converts with its sign and sets NV. -/
def roundTo (f mode : Nat) (sat : Bool) (x : Val) : Nat × Status :=
  match x with
  | .nan neg => (nanCode f neg, { nv := true })
  | .inf neg =>
    match f with
    | 2 => if sat then (maxCode 2 neg, { sat := true }) else (nanCode 2 neg, { ov := true })
    | 3 => (maxCode 3 neg, { sat := true })
    | 4 | 5 | 6 =>
      let q := intRange f
      (intCode q.1 neg (if neg then q.2.2 else q.2.1), { sat := true })
    | _ => (infCode f neg, {})
  | .fin neg m e =>
    let p := pow2 e
    roundQ f mode sat neg (m * p.1) p.2

/-- The value of a code of a numeric format, without its block scale (R28 to R33). -/
def codeVal (f code : Nat) : Val :=
  if isFloat f then floatVal f code
  else
    let n := if f = 4 then 8 else if f = 5 then 32 else 16
    let v := signed n code
    .fin (decide (v < 0)) v.natAbs 0

/-- The sign of a value. -/
def Val.neg : Val → Bool
  | .nan s => s
  | .inf s => s
  | .fin s _ _ => s

/-- The value is a NaN. -/
def Val.isNan : Val → Bool
  | .nan _ => true
  | _ => false

/-- The value is an infinity. -/
def Val.isInf : Val → Bool
  | .inf _ => true
  | _ => false

/-- The value is a zero. -/
def Val.isZero : Val → Bool
  | .fin _ m _ => m == 0
  | _ => false

/-- The value is finite and not zero. -/
def Val.isNonzero : Val → Bool
  | .fin _ m _ => m != 0
  | _ => false

/-- The value with its sign changed. -/
def Val.flip : Val → Val
  | .nan s => .nan (!s)
  | .inf s => .inf (!s)
  | .fin s m e => .fin (!s) m e

/-- The magnitude. -/
def Val.abs : Val → Val
  | .nan _ => .nan false
  | .inf _ => .inf false
  | .fin _ m e => .fin false m e

/-- A finite value as a signed integer times 2^e, for an e not above its own exponent. -/
def Val.scaled (x : Val) (e : Int) : Int :=
  match x with
  | .fin s m e' => let v : Int := m * 2 ^ (e' - e).toNat; if s then -v else v
  | _ => 0

/-- Exponent of a finite value. -/
def Val.exp : Val → Int
  | .fin _ _ e => e
  | _ => 0

/-- A finite value as a rational. -/
def Val.rat (x : Val) : Rat :=
  match x with
  | .fin s m e =>
    let p := pow2 e
    let v : Rat := (m * p.1 : Nat) / (p.2 : Nat)
    if s then -v else v
  | _ => 0

/-- A signed integer times 2^e as a value; a zero is +0. -/
def ofScaled (n : Int) (e : Int) : Val := .fin (decide (n < 0)) n.natAbs e

/-- FP32 bits as a value. -/
def fp32 (b : BitVec 32) : Val := floatVal 0 b.toNat

/-- to_fp32 of an element with its scale code (R34, R39, R40): value and the status OV or NV. The scale code is 127
for the formats without one. -/
def toFp32 (f code scale : Nat) : Val × Status :=
  if f = 2 ∨ f = 3 then
    if scale = 255 then (.nan false, { nv := true })
    else
      match floatVal f code with
      | .fin s m e =>
        let r := roundTo 0 0 true (.fin s m (e + scale - 127))
        (floatVal 0 r.1, r.2)
      | v => (v, {})
  else
    match codeVal f code with
    | .fin s m e =>
      let r := roundTo 0 0 true (.fin s m e)
      (floatVal 0 r.1, {})
    | v => (v, {})

/-- The exact value of an element with its scale (R34), for TMMA and TDQNT. -/
def scaledVal (f code scale : Nat) : Val :=
  if f = 2 ∨ f = 3 then
    if scale = 255 then .nan false
    else
      match floatVal f code with
      | .fin s m e => .fin s m (e + scale - 127)
      | v => v
  else codeVal f code

/-! ### Exact operations; a zero takes its IEEE 754 sign for the mode -/

/-- Exact sum. NaN and opposite infinities give the canonical NaN with NV. An exact zero sum of unlike signs is +0,
or -0 under mode 3 (IEEE 754). -/
def valAdd (mode : Nat) (x y : Val) : Val × Status :=
  match x, y with
  | .nan _, _ => (.nan false, { nv := true })
  | _, .nan _ => (.nan false, { nv := true })
  | .inf a, .inf b => if a = b then (.inf a, {}) else (.nan false, { nv := true })
  | .inf a, .fin .. => (.inf a, {})
  | .fin .., .inf b => (.inf b, {})
  | .fin a m e, .fin b n g =>
    let q := min e g
    let v := (Val.fin a m e).scaled q + (Val.fin b n g).scaled q
    if v = 0 then (.fin (if a = b then a else mode == 3) 0 0, {}) else (ofScaled v q, {})

/-- Exact product. Infinity times zero gives NaN with NV. A zero product has the sign of its factors, and an INT8 zero counts as
positive, so that its product with a negative value is -0; R46 states no sign for it (log 63). -/
def valMul (x y : Val) : Val × Status :=
  match x, y with
  | .nan _, _ => (.nan false, { nv := true })
  | _, .nan _ => (.nan false, { nv := true })
  | .inf a, .inf b => (.inf (a != b), {})
  | .inf a, .fin b n _ => if n = 0 then (.nan false, { nv := true }) else (.inf (a != b), {})
  | .fin a m _, .inf b => if m = 0 then (.nan false, { nv := true }) else (.inf (a != b), {})
  | .fin a m e, .fin b n g => (.fin (a != b) (m * n) (e + g), {})

/-- x < y of numbers; zeros are equal. -/
def valLt (x y : Val) : Bool :=
  match x, y with
  | .nan _, _ => false
  | _, .nan _ => false
  | .inf a, .inf b => a && !b
  | .inf a, .fin .. => a
  | .fin .., .inf b => !b
  | .fin .., .fin .. =>
    let q := min x.exp y.exp
    decide (x.scaled q < y.scaled q)

/-- x == y of numbers; zeros are equal. -/
def valEq (x y : Val) : Bool :=
  match x, y with
  | .nan _, _ => false
  | _, .nan _ => false
  | .inf a, .inf b => a == b
  | .inf _, .fin .. => false
  | .fin .., .inf _ => false
  | .fin .., .fin .. =>
    let q := min x.exp y.exp
    decide (x.scaled q = y.scaled q)

/-- x comes before y in the order of TMAX and TMIN, which puts -0 below +0 (R226). -/
def valBelow (x y : Val) : Bool := valLt x y || (x.isZero && y.isZero && x.neg && !y.neg)

/-- The larger of two values (R226, R228). -/
def valMax (x y : Val) : Val × Status :=
  if x.isNan || y.isNan then (.nan false, { nv := true }) else (if valBelow x y then y else x, {})

/-- The smaller of two values. -/
def valMin (x y : Val) : Val × Status :=
  if x.isNan || y.isNan then (.nan false, { nv := true }) else (if valBelow x y then x else y, {})

/-- Sum of a list formed exactly (R228, R46): infinities of one sign, NaN with NV for both signs or a NaN; a zero
sum is +0 unless every term is -0. -/
def valSum (l : List Val) : Val × Status :=
  if l.any Val.isNan then (.nan false, { nv := true })
  else
    let pos := l.any fun v => v.isInf && !v.neg
    let neg := l.any fun v => v.isInf && v.neg
    if pos && neg then (.nan false, { nv := true })
    else if pos then (.inf false, {})
    else if neg then (.inf true, {})
    else
      let q := (l.map Val.exp).foldl min 0
      let v := (l.map fun x => x.scaled q).foldl (· + ·) 0
      if v = 0 then (.fin (!l.isEmpty && l.all Val.neg) 0 0, {}) else (ofScaled v q, {})

/-- A value rounded to FP32 by a mode, with the status of both steps. -/
def toF32 (mode : Nat) (x : Val × Status) : Val × Status :=
  let r := roundTo 0 mode true x.1
  (floatVal 0 r.1, x.2.or r.2)

/-! ### FP32 of the atomics (R187) -/

/-- rne32(a + b) (R184, R187). -/
def fp32Add (a b : BitVec 32) : BitVec 32 := BitVec.ofNat 32 (roundTo 0 0 true (valAdd 0 (fp32 a) (fp32 b)).1).1

/-- fmin of FP32 (R187). -/
def fp32Min (a b : BitVec 32) : BitVec 32 := BitVec.ofNat 32 (roundTo 0 0 true (valMin (fp32 a) (fp32 b)).1).1

/-- fmax of FP32 (R187). -/
def fp32Max (a b : BitVec 32) : BitVec 32 := BitVec.ofNat 32 (roundTo 0 0 true (valMax (fp32 a) (fp32 b)).1).1

/-! ### Stochastic rounding (R43) -/

/-- TSRND of one element: format of td, the FP32 value, the random word and %tsrb. A round-up past the largest finite
BF16 gives the infinity of RNE with OV, since TSRND has no mode for R37's overflow (log 63). -/
def stochastic (f : Nat) (v : Val) (rnd tsrb : Nat) : Nat × Status :=
  match v with
  | .fin s m e =>
    let p := pow2 e
    let n := m * p.1
    let d := p.2
    let t := roundFloat f 1 s n d
    let lsb := if m = 0 then 0 else t.2
    let r := pow2 lsb
    -- exactly representable: truncation is exact and in range
    if t.1 * r.1 * d = n * r.2 then roundTo f 0 true v
    else
      let below := (lsb - e).toNat
      let dd := min 32 below
      -- the dd bits of |v| immediately below lsb
      let frac := n * r.2 * 2 ^ dd / (d * r.1) % 2 ^ dd
      let k := min dd tsrb
      let fk := frac / 2 ^ (dd - k)
      let rr := rnd % 2 ^ k
      let q := t.1 + bit (decide (2 ^ k ≤ fk + rr))
      let x := roundQ f 0 true s (q * r.1) r.2
      (x.1, { x.2 with fz := x.2.fz || ((f == 2 || f == 3) && q == 0) })
  | _ => roundTo f 0 true v

/-! ### Generators (R53) -/

/-- One step of a 64-bit xorshift generator (R53). -/
def xorshift (x : Word) : Word :=
  let a := x ^^^ (x <<< 13)
  let b := a ^^^ (a >>> 7)
  b ^^^ (b <<< 17)

/-- A seed under the zero rule of R53. -/
def seeded (x : Word) : Word := if x = 0 then zeroSubstitute else x

end Sys2Proof.Machine
end

