-- ==== Sys2Proof/Machine/MemAccess.lean ====
section
/-! DEFINITION. Loads, stores, full/empty words and atomics (R91, R151 to R163, R176 to R187), and the events that
perform them. -/

namespace Sys2Proof.Machine

/-! ### Checks and issue -/

/-- What a MEM or AT instruction finds when its checks of R176 are made: a cause, an element out of bounds, a FIFO
bank, or where its bytes live. -/
inductive Found where
  | trap (cause : Nat) (info : Word)
  | outside (l : Layout)
  | fifo (l : Layout) (bank : Nat)
  | bytes (l : Layout) (addr : Nat) (locs : List Loc)
  deriving DecidableEq, Repr

/-- What an access is, for its checks. -/
structure Ask where
  width : Nat
  rd : Bool
  wr : Bool
  /-- LDD or STD: the accesses a FIFO bank allows -/
  fifo : Bool
  fe : Bool
  atomic : Bool
  /-- the atomic exists as a PCIe AtomicOp (R163) -/
  pcie : Bool
  deriving DecidableEq, Repr

/-- The checks of R176, in its order. A space-3 access to a bank that is not in FIFO mode leaves the bank number in
%trapinfo, which R164 states for R148 alone. A full/empty operation on space 3 or 5 meets step 1 before step 2, so it raises
0x07, where the table of R140 and R151 have 0x08; and a space-3 BASE that names more than a bank has reason 8 (log 69). -/
def State.find (s : State) (k num : Nat) (coords : Word) (q : Ask) : State × Found :=
  match s.layout k num q.rd q.wr q.wr with
  | .error r => (s, .trap 0x07 (layoutInfo num r))
  | .ok l =>
    if l.space = 5 ∨ (l.space = 3 ∧ q.fifo = false) ∨ (l.space = 3 ∧ l.base / 64 ≠ 0) ∨
        (l.space = 6 ∧ q.atomic ∧ q.pcie = false) then (s, .trap 0x07 (layoutInfo num 8))
    else if q.fe ∧ 2 < l.space then (s, .trap 0x08 (word num))
    else
      let idx := l.index coords []
      let addr := l.address idx
      if (q.fe ∨ q.atomic) ∧ addr % q.width ≠ 0 then (s, .trap 0x09 (word addr))
      else if l.inBounds idx = false then (s, .outside l)
      else if l.space = 3 then
        if (s.cluster (clusterOf k)).mode (l.base % 64) = some 2 ∧
            ¬ (q.wr ∧ (tfind (s.cluster (clusterOf k)).bankBusy (l.base % 64)).isSome) then
          (s, .fifo l (l.base % 64))
        else (s, .trap 0x0B (word (l.base % 64)))
      else
        match s.locate k l.space addr q.width ⟨q.rd || (q.fe && !q.wr), q.wr, q.atomic, false, none⟩ with
        | (s1, .error f) => (s1, .trap f.cause f.info)
        | (s1, .ok ls) => (s1, .bytes l addr ls)

/-- The loads counter or the stores counter of R110 has room: each holds up to 65,535. -/
def Stream.room (x : Stream) (load : Bool) : Bool :=
  decide ((x.accesses.filter fun a => a.kind.isLoad == load).length < 65535)

/-- Puts an access at the end of the stream's outstanding accesses (R110, R152). -/
def State.pushAccess (s : State) (k : Nat) (st : StreamId) (a : Access) : State :=
  let x := s.stream k st
  (s.setStream k st { x with accesses := x.accesses ++ [{ a with order0 := s.order }] }).tick

/-- An extended load value: `n` bytes, sign-extended or not (R177). -/
def loadValue (n : Nat) (sg : Bool) (v : Nat) : Word := if sg then wordI (signed (8 * n) v) else word v

/-- A load of `n` bytes (R177, R180). -/
def load (n : Nat) (sg : Bool) (d c : Reg) (l : BitVec 8) (r : BitVec 2) (s : State) : Out :=
  onTurn s fun k st =>
    if s.anyPending k st [d, c] then s.waitOn k st .register
    else if (s.stream k st).room true = false then s.waitOn k st .unit
    else
      match s.find k l.toNat (s.reg k st c) ⟨n, true, false, decide (n = 8), false, false, false⟩ with
      | (s1, .trap cause info) => s1.raise k st cause info
      | (s1, .outside y) => (s1.setReg k st d (loadValue n sg (leNat (y.fillBytes n)))).retire k st 2
      | (s1, .fifo y b) =>
        ((s1.pushAccess k st ⟨.fifoLoad b d, [], 0, y.base, r, y.bind, false, (s.pos k st).hdr, (s.pos k st).off, 0⟩).retire
          k st 2).later (.fifoServe k st)
      | (s1, .bytes y addr ls) =>
        ((s1.pushAccess k st ⟨.load d sg, ls, 0, addr, r, y.bind, y.allocates, (s.pos k st).hdr, (s.pos k st).off, 0⟩).retire
          k st 2).later (.loadReturn k st)

/-- A store of `n` bytes (R177, R180). -/
def store (n : Nat) (d c : Reg) (l : BitVec 8) (r : BitVec 2) (s : State) : Out :=
  onTurn s fun k st =>
    if s.anyPending k st [d, c] then s.waitOn k st .register
    else if (s.stream k st).room false = false then s.waitOn k st .unit
    else
      match s.find k l.toNat (s.reg k st c) ⟨n, false, true, decide (n = 8), false, false, false⟩ with
      | (s1, .trap cause info) => s1.raise k st cause info
      | (s1, .outside y) => (s1.drops k y.tid 1).retire k st 2
      | (s1, .fifo y b) =>
        ((s1.pushAccess k st ⟨.fifoStore b, [], s.reg k st d, y.base, r, y.bind, false, (s.pos k st).hdr, (s.pos k st).off,
          0⟩).retire k st 2).later (.fifoServe k st)
      | (s1, .bytes y addr ls) =>
        ((s1.pushAccess k st ⟨.store, ls, s.reg k st d, addr, r, y.bind, y.allocates, (s.pos k st).hdr, (s.pos k st).off, 0⟩).retire
          k st 2).later (.storePerform k st)

/-! ### Full/empty words (R151, R181, R182) -/

/-- Whether a full/empty operation need not wait. -/
def FeOp.ready (op : FeOp) (full : Bool) : Bool :=
  match op with
  | .ldf => full
  | .ldfe => full
  | .ste => !full
  | .stf => true
  | .sete => true

/-- A store or atomic outside the core's own scratch is an action of R135. -/
def State.commitLoc (s : State) (k : Nat) (ls : List Loc) : State :=
  match ls with
  | .scratch c _ :: _ => if c = k then s else s.commit k
  | [] => s
  | _ => s.commit k

/-- LDF or LDFE. -/
def FeOp.isLoad (op : FeOp) : Bool := op == .ldf || op == .ldfe

/-- What a full/empty operation does to its word and to its stream, test and change in one step (R181). -/
def State.doWord (s : State) (k : Nat) (st : StreamId) (op : FeOp) (rd : Reg) (v : Word) (ls : List Loc) : State :=
  let l := ls.headD (.scratch k 0)
  let put (s : State) : State := (s.homeSetAll (s.keyOf k) (ls.zip (leBytes 8 v.toNat))).commitLoc k ls
  let got : Word := word (leNat (ls.map (s.homeGet (s.keyOf k))))
  match op with
  | .ldf => s.setReg k st rd got
  | .ldfe => (s.setWordFull l false).setReg k st rd got
  | .ste => (put s).setWordFull l true
  | .stf => (put s).setWordFull l true
  | .sete => (s.setWordFull l false).commitLoc k ls

/-- Address of a location in its space. -/
def Loc.addr : Loc → Nat
  | .scratch _ o => o
  | .cluster _ o => o
  | .hbm pa => pa
  | .direct pa => pa
  | .host a => a

/-- A full/empty operation whose bit lets it go retires; the bytes of its word are charged, and SETE moves none (R409). A load of a word that holds an uncorrectable error changes the
bit, keeps its register and raises cause 0x13 behind the instruction (R179). -/
def State.endWord (s0 : State) (k : Nat) (st : StreamId) (op : FeOp) (rd : Reg) (v : Word) (ls : List Loc) : State :=
  let l := ls.headD (.scratch k 0)
  let s := if op == .sete then s0 else s0.chargeLocs k ls
  if op.isLoad && ls.any s.locBad then
    let p := s.pos k st
    ((if op == .ldfe then s.setWordFull l false else s).retire k st 2).raiseAt k st 0x13 (word l.addr) p.hdr p.off
  else (s.doWord k st op rd v ls).retire k st 2

/-- The first waiter of a word, in arrival order, that the bit lets go (R182). -/
def State.nextWordWaiter (s : State) (l : Loc) : Option (Nat × StreamId × FeOp × Reg × Word × List Loc) :=
  (sortByOrder s.waiters).findSome? fun x =>
    match x with
    | (_, k, st, .word op rd v ls) =>
      if ls.head? = some l ∧ op.ready (s.wordFull l) then some (k, st, op, rd, v, ls) else none
    | _ => none

/-- Serves the waiters of a word after it has changed (R182): one at a time, each re-testing the bit. -/
def State.serveWord (s : State) (l : Loc) : Nat → State
  | 0 => s
  | fuel + 1 =>
    match s.nextWordWaiter l with
    | none => s
    | some (k, st, op, rd, v, ls) => (s.endWord k st op rd v ls).serveWord l fuel

/-- A full/empty operation (R181): the stream waits for its earlier accesses (R152) and for the bit. LDF and LDFE ask the
layout for RD alone, though LDFE changes the bit, and STE, STF and SETE for WR alone: R151 and R181 name no right for the
bit (log 70). -/
def fullEmpty (op : FeOp) (d c : Reg) (l : BitVec 8) (s : State) : Out :=
  let isLoad := op.isLoad
  onTurn s fun k st =>
    if s.anyPending k st [d, c] then s.waitOn k st .register
    else
      match s.find k l.toNat (s.reg k st c) ⟨8, isLoad, !isLoad, false, true, false, false⟩ with
      | (s1, .trap cause info) => s1.raise k st cause info
      | (s1, .outside y) =>
        if isLoad then (s1.setReg k st d (word (leNat (y.fillBytes 8)))).retire k st 2
        else (s1.drops k y.tid (if op = .sete then 0 else 1)).retire k st 2
      | (s1, .fifo y _) => s1.raise k st 0x07 (layoutInfo y.num 8)
      | (s1, .bytes _ _ ls) =>
        if (s1.core k).quiet st = false then s1.waitOn k st .unit
        else if op.ready (s1.wordFull (ls.headD (.scratch k 0))) then
          (s1.endWord k st op d (s.reg k st d) ls).serveWord (ls.headD (.scratch k 0)) s1.waiters.length
        else s1.waitOn k st (.word op d (s.reg k st d) ls)

/-! ### Atomics (R161, R184 to R187) -/

/-- Width of an atomic in bytes (R184). -/
def AtOp.width (op : AtOp) : Nat :=
  match op with
  | .addw | .fadd | .fmin | .fmax => 4
  | _ => 8

/-- Whether a PCIe AtomicOp carries it (R163). -/
def AtOp.pcie (op : AtOp) : Bool :=
  match op with
  | .add | .addw | .xchg | .cas => true
  | _ => false

/-- The new word of an atomic (R184, R186, R187); `w` is the operand of ATCAS beyond v. -/
def AtOp.apply (op : AtOp) (old v w : Word) : Word :=
  match op with
  | .add => old + v
  | .addw => ((old.setWidth 32 + v.setWidth 32 : BitVec 32)).setWidth 64
  | .fadd => (fp32Add (old.setWidth 32) (v.setWidth 32)).setWidth 64
  | .min => if old.slt v then old else v
  | .max => if old.slt v then v else old
  | .minu => if old.ult v then old else v
  | .maxu => if old.ult v then v else old
  | .and => old &&& v
  | .or => old ||| v
  | .xor => old ^^^ v
  | .xchg => v
  | .cas => if old = v then w else old
  | .fmin => (fp32Min (old.setWidth 32) (v.setWidth 32)).setWidth 64
  | .fmax => (fp32Max (old.setWidth 32) (v.setWidth 32)).setWidth 64

/-- An atomic instruction (R180, R184, R185): sD is read, and takes the old word where `ret`. -/
def atomic (op : AtOp) (d c : Reg) (l : BitVec 8) (r : BitVec 2) (ret : Bool) (s : State) : Out :=
  onTurn s fun k st =>
    if s.anyPending k st (if op = .cas then [d, d + 1, c] else [d, c]) then s.waitOn k st .register
    else if (s.stream k st).room ret = false then s.waitOn k st .unit
    else
      match s.find k l.toNat (s.reg k st c) ⟨op.width, true, true, false, false, true, op.pcie⟩ with
      | (s1, .trap cause info) => s1.raise k st cause info
      | (s1, .outside y) =>
        let s2 := s1.drops k y.tid 1
        (if ret then s2.setReg k st d (word (leNat (y.fillBytes op.width))) else s2).retire k st 2
      | (s1, .fifo y _) => s1.raise k st 0x07 (layoutInfo y.num 8)
      | (s1, .bytes y addr ls) =>
        ((s1.pushAccess k st ⟨.atomic op (s.reg k st (d + 1)) (if ret then some d else none), ls, s.reg k st d, addr, r,
          y.bind, y.allocates, (s.pos k st).hdr, (s.pos k st).off, 0⟩).retire k st 2).later (.atomicPerform k st)

/-! ### Events that perform accesses -/

/-- Takes the oldest outstanding access off a stream. -/
def State.popAccess (s : State) (k : Nat) (st : StreamId) : State :=
  let x := s.stream k st
  s.setStream k st { x with accesses := x.accesses.drop 1 }

/-- Writes a user register of a stream: an outstanding access of the C stream's handler lands in the handler
bank (R166, R364). -/
def State.land (s : State) (k : Nat) (st : StreamId) (rd : Reg) (v : Word) : State := s.setReg k st rd v

/-- What the order field of an access does to the core's copies of its sectors before it (R153): an acquire reads them from
their homes again, and a release writes them back and holds them no more. -/
def State.ordered (s : State) (k : Nat) (order : BitVec 2) (ls : List Loc) : State :=
  if order.getLsbD 1 then s.syncSectors k ls else if order.getLsbD 0 then s.refreshSectors k ls else s

/-- An access goes no further now: it stands behind an operation of its stream (R152), or the clock is stopped (R404). -/
def State.accessHeld (s : State) (k : Nat) (st : StreamId) (a : Access) : Bool := (s.core k).heldBehind st a || !s.clocked k

/-- A load finds an uncorrectable error in its bytes (R179): one with an order field reads the homes. -/
def State.loadBad (s : State) (k : Nat) (a : Access) : Bool :=
  a.locs.any fun l => if a.order = 0 then s.readBad k l else s.locBad l

/-- Locations whose bytes a core's read moves: no cached copy supplies them. -/
def State.missing (s : State) (k : Nat) (ls : List Loc) : List Loc := ls.filter fun l => ((s.core k).copyOf l).isNone

/-- A core has read some locations: the missing bytes are charged (R409), their sectors stay in the cache where the access may
allocate there and the cache has room (R15, log 8), and what came through a system-atomic page leaves no older copy behind (R144,
R154). -/
def State.afterRead (s : State) (k : Nat) (alloc : Bool) (ls : List Loc) : State :=
  let m := s.missing k ls
  let keep := alloc && (s.core k).cacheRoom m
  let s1 := s.chargeLocs k (if keep then m.filter fun l => (sectorsOf [l]).isEmpty else onceEach m)
  (s1.fillCache k keep m).seenDirect k ls

/-- LOAD_RETURN (R166, R179): the oldest access of the stream, if it is a load or a returning atomic, writes its
register. -/
def execLoadReturn (k : Nat) (st : StreamId) (s : State) : Out :=
  match (s.stream k st).accesses with
  | [] => .next s
  | a :: _ =>
    if s.accessHeld k st a then .next s
    else
    match a.kind with
    | .returning rd => .next (((s.popAccess k st).land k st rd a.value).enterTrap k)
    | .load rd sg =>
      let s1 := s.ordered k a.order a.locs
      if s1.loadBad k a then .next ((s1.popAccess k st).raiseAt k st 0x13 (word (a.addr % 2 ^ 57)) a.hdr a.off)
      else
        let v := s1.coreRead k a.locs
        let s2 := (s1.afterRead k (a.alloc && !a.order.getLsbD 1) a.locs).popAccess k st
        .next ((s2.land k st rd (loadValue a.locs.length sg v)).enterTrap k)
    | _ => .next s

/-- STORE_PERFORM (R152, R153): the oldest access of the stream, if it is a store, reaches its copy, the core's cache
or its home: the cache keeps it where the access may allocate there and the cache has room (R15, log 8). All bytes of an access are
performed in one step, those of two sectors too, which R150 leaves in no order among themselves (log 85). -/
def execStorePerform (k : Nat) (st : StreamId) (s : State) : Out :=
  match (s.stream k st).accesses with
  | [] => .next s
  | a :: _ =>
    if s.accessHeld k st a then .next s
    else
    match a.kind with
    | .store =>
      let s1 := s.ordered k a.order a.locs
      let bs := a.locs.zip (leBytes a.locs.length a.value.toNat)
      let alloc := a.alloc && (s1.core k).cacheRoom a.locs
      let s2 :=
        if a.order.getLsbD 1 then (s1.chargeLocs k a.locs).coreThroughAll k bs
        else (s1.chargeLocs k (a.locs.filter fun l => !(s1.core k).keeps alloc l)).coreSetAll k alloc a.bind bs
      .next (((s2.commitLoc k a.locs).popAccess k st).enterTrap k)
    | _ => .next s

/-- ATOMIC_PERFORM (R161): the oldest access of the stream, if it is an atomic, is performed at its home. It reads its word, so
an uncorrectable error there raises cause 0x13, also where it returns nothing and counts as a store (log 69). -/
def execAtomicPerform (k : Nat) (st : StreamId) (s : State) : Out :=
  match (s.stream k st).accesses with
  | [] => .next s
  | a :: rest =>
    if s.accessHeld k st a then .next s
    else
    match a.kind with
    | .atomic op new rd =>
      let s1 := s.syncSectors k a.locs
      if a.locs.any s1.locBad then
        .next ((s1.popAccess k st).raiseAt k st 0x13 (word (a.addr % 2 ^ 57)) a.hdr a.off)
      else
        let old := word (leNat (a.locs.map (s1.homeGet (s1.keyOf k))))
        let s2 := s1.homeSetAll (s1.keyOf k) (a.locs.zip (leBytes a.locs.length (op.apply old a.value new).toNat))
        let s3 := (s2.chargeLocs k a.locs).commitLoc k a.locs
        match rd with
        | none => .next ((s3.popAccess k st).enterTrap k)
        | some d =>
          .next ((s3.setStream k st { s3.stream k st with
            accesses := { a with kind := .returning d, value := old } :: rest }).later (.loadReturn k st))
    | _ => .next s

/-- The layout a copy reads memory through, or writes it through. -/
def copyLayout (i : Instr) (reads : Bool) : Option Nat :=
  match i with
  | .hld _ l _ _ => if reads then some l.toNat else none
  | .hst _ _ l _ _ => if reads then none else some l.toNat
  | .hcpy d y _ => some (if reads then y.toNat else d.toNat)
  | .hsend _ y _ => if reads then some y.toNat else none
  | .hfill d _ => if reads then none else some d.toNat
  | _ => none

/-- A copy of core k whose next chunk has arrived at a FIFO bank (R142). A chunk of HCPY arrives at both of its banks at once, at its
destination also while it waits at its source (log 88). -/
def State.copyAtBank (s : State) (k bank : Nat) (reads : Bool) (p : Copy) : Bool :=
  p.started && p.status.isNone && !p.stopped &&
    (match copyLayout p.instr reads with
    | some l => (s.rawLayout k l).space == 3 && (s.rawLayout k l).base % 64 == bank
    | none => false)

/-- An earlier arrival of the same direction waits at the same bank (R142). An access that its stream still holds back has not
arrived. -/
def State.fifoAhead (s : State) (cl bank : Nat) (reads : Bool) (n : Nat) : Bool :=
  s.cores.any fun (k, c) =>
    clusterOf k == cl && ((s.unitsRun k && c.copies.any fun p => s.copyAtBank k bank reads p && decide (p.since < n)) ||
      streamIds.any fun st =>
      match (c.stream st).accesses with
      | [] => false
      | a :: _ =>
        !c.heldBehind st a &&
        match a.kind with
        | .fifoLoad b _ => reads && b == bank && decide (a.order0 < n)
        | .fifoStore b => !reads && b == bank && decide (a.order0 < n)
        | _ => false)

/-- Bytes of a FIFO bank, head first (R142). -/
def State.fifoBytes (s : State) (cl bank : Nat) : List Byte := tget [] (s.cluster cl).fifo bank

/-- Replaces the bytes of a FIFO bank. -/
def State.setFifo (s : State) (cl bank : Nat) (bs : List Byte) : State :=
  s.setCluster cl { s.cluster cl with fifo := tset [] (s.cluster cl).fifo bank bs }

/-- A FIFO bank with `n` bytes gone from its head. -/
def State.takeFifo (s : State) (cl bank n : Nat) : State :=
  let c := s.cluster cl
  let s1 := s.setFifo cl bank ((s.fifoBytes cl bank).drop n)
  s1.setCluster cl { s1.cluster cl with fifoBad := tset 0 c.fifoBad bank (tget 0 c.fifoBad bank - n) }

/-- An uncorrectable error lies in the `n` bytes at the head of a FIFO bank (R179). -/
def State.fifoError (s : State) (cl bank n : Nat) : Bool :=
  decide (1 ≤ tget 0 (s.cluster cl).fifoBad bank ∧ tget 0 (s.cluster cl).fifoBad bank ≤ n)

/-- Bytes a FIFO bank holds at most (R142). -/
def fifoSize : Nat := 524288

/-- FIFO_SERVE (R142): the oldest access of the stream, if it is a FIFO access whose turn it is, takes its bytes or
finds its room; otherwise it goes on waiting. A bank has no element address, so cause 0x13 shows the BASE of the layout, which
is the bank number (log 69). -/
def execFifoServe (k : Nat) (st : StreamId) (s : State) : Out :=
  match (s.stream k st).accesses with
  | [] => .next s
  | a :: _ =>
    if s.accessHeld k st a then .next s
    else
    let cl := clusterOf k
    match a.kind with
    | .fifoLoad b rd =>
      let bs := s.fifoBytes cl b
      if bs.length < 8 ∨ s.fifoAhead cl b true a.order0 then .next s
      else
        let s1 := (((s.takeFifo cl b 8).charge k 1600).commit k).popAccess k st
        if s.fifoError cl b 8 then .next (s1.raiseAt k st 0x13 (word (a.addr % 2 ^ 57)) a.hdr a.off)
        else .next ((s1.land k st rd (word (leNat (bs.take 8)))).enterTrap k)
    | .fifoStore b =>
      let bs := s.fifoBytes cl b
      if fifoSize < bs.length + 8 ∨ s.fifoAhead cl b false a.order0 then .next s
      else
        .next (((((s.setFifo cl b (bs ++ leBytes 8 a.value.toNat)).charge k 1600).commit k).popAccess k st).enterTrap k)
    | _ => .next s

/-! ### The instructions -/

/-- LDB (R177). -/
def execLdb (d c : Reg) (l : BitVec 8) (r : BitVec 2) (s : State) : Out := load 1 false d c l r s

/-- LDBS (R177). -/
def execLdbs (d c : Reg) (l : BitVec 8) (r : BitVec 2) (s : State) : Out := load 1 true d c l r s

/-- LDH (R177). -/
def execLdh (d c : Reg) (l : BitVec 8) (r : BitVec 2) (s : State) : Out := load 2 false d c l r s

/-- LDHS (R177). -/
def execLdhs (d c : Reg) (l : BitVec 8) (r : BitVec 2) (s : State) : Out := load 2 true d c l r s

/-- LDW (R177). -/
def execLdw (d c : Reg) (l : BitVec 8) (r : BitVec 2) (s : State) : Out := load 4 false d c l r s

/-- LDWS (R177). -/
def execLdws (d c : Reg) (l : BitVec 8) (r : BitVec 2) (s : State) : Out := load 4 true d c l r s

/-- LDD (R177). -/
def execLdd (d c : Reg) (l : BitVec 8) (r : BitVec 2) (s : State) : Out := load 8 false d c l r s

/-- STB (R177). -/
def execStb (d c : Reg) (l : BitVec 8) (r : BitVec 2) (s : State) : Out := store 1 d c l r s

/-- STH (R177). -/
def execSth (d c : Reg) (l : BitVec 8) (r : BitVec 2) (s : State) : Out := store 2 d c l r s

/-- STW (R177). -/
def execStw (d c : Reg) (l : BitVec 8) (r : BitVec 2) (s : State) : Out := store 4 d c l r s

/-- STD (R177). -/
def execStd (d c : Reg) (l : BitVec 8) (r : BitVec 2) (s : State) : Out := store 8 d c l r s

/-- LDF (R181); its order field adds nothing in spaces 0 to 2 (R153). -/
def execLdf (d c : Reg) (l : BitVec 8) (_r : BitVec 2) (s : State) : Out := fullEmpty .ldf d c l s

/-- LDFE (R181); its order field adds nothing in spaces 0 to 2 (R153). -/
def execLdfe (d c : Reg) (l : BitVec 8) (_r : BitVec 2) (s : State) : Out := fullEmpty .ldfe d c l s

/-- STE (R181); its order field adds nothing in spaces 0 to 2 (R153). -/
def execSte (d c : Reg) (l : BitVec 8) (_r : BitVec 2) (s : State) : Out := fullEmpty .ste d c l s

/-- STF (R181); its order field adds nothing in spaces 0 to 2 (R153). -/
def execStf (d c : Reg) (l : BitVec 8) (_r : BitVec 2) (s : State) : Out := fullEmpty .stf d c l s

/-- SETE (R181). -/
def execSete (c : Reg) (l : BitVec 8) (_r : BitVec 2) (s : State) : Out := fullEmpty .sete 0 c l s

/-- ATADD (R184, R185). -/
def execAtadd (d c : Reg) (l : BitVec 8) (r : BitVec 2) (x : BitVec 1) (s : State) : Out :=
  atomic .add d c l r (x == 1) s

/-- ATADDW (R184, R185). -/
def execAtaddw (d c : Reg) (l : BitVec 8) (r : BitVec 2) (x : BitVec 1) (s : State) : Out :=
  atomic .addw d c l r (x == 1) s

/-- ATFADD (R184, R185). -/
def execAtfadd (d c : Reg) (l : BitVec 8) (r : BitVec 2) (x : BitVec 1) (s : State) : Out :=
  atomic .fadd d c l r (x == 1) s

/-- ATMIN (R184, R185). -/
def execAtmin (d c : Reg) (l : BitVec 8) (r : BitVec 2) (x : BitVec 1) (s : State) : Out :=
  atomic .min d c l r (x == 1) s

/-- ATMAX (R184, R185). -/
def execAtmax (d c : Reg) (l : BitVec 8) (r : BitVec 2) (x : BitVec 1) (s : State) : Out :=
  atomic .max d c l r (x == 1) s

/-- ATMINU (R184, R185). -/
def execAtminu (d c : Reg) (l : BitVec 8) (r : BitVec 2) (x : BitVec 1) (s : State) : Out :=
  atomic .minu d c l r (x == 1) s

/-- ATMAXU (R184, R185). -/
def execAtmaxu (d c : Reg) (l : BitVec 8) (r : BitVec 2) (x : BitVec 1) (s : State) : Out :=
  atomic .maxu d c l r (x == 1) s

/-- ATAND (R184, R185). -/
def execAtand (d c : Reg) (l : BitVec 8) (r : BitVec 2) (x : BitVec 1) (s : State) : Out :=
  atomic .and d c l r (x == 1) s

/-- ATOR (R184, R185). -/
def execAtor (d c : Reg) (l : BitVec 8) (r : BitVec 2) (x : BitVec 1) (s : State) : Out :=
  atomic .or d c l r (x == 1) s

/-- ATXOR (R184, R185). -/
def execAtxor (d c : Reg) (l : BitVec 8) (r : BitVec 2) (x : BitVec 1) (s : State) : Out :=
  atomic .xor d c l r (x == 1) s

/-- ATXCHG (R184, R185). -/
def execAtxchg (d c : Reg) (l : BitVec 8) (r : BitVec 2) (x : BitVec 1) (s : State) : Out :=
  atomic .xchg d c l r (x == 1) s

/-- ATFMIN (R184, R185). -/
def execAtfmin (d c : Reg) (l : BitVec 8) (r : BitVec 2) (x : BitVec 1) (s : State) : Out :=
  atomic .fmin d c l r (x == 1) s

/-- ATFMAX (R184, R185). -/
def execAtfmax (d c : Reg) (l : BitVec 8) (r : BitVec 2) (x : BitVec 1) (s : State) : Out :=
  atomic .fmax d c l r (x == 1) s

/-- ATCAS (R186). -/
def execAtcas (d c : Reg) (l : BitVec 8) (r : BitVec 2) (s : State) : Out := atomic .cas d c l r true s

end Sys2Proof.Machine
end

