-- ==== Sys2Proof/Machine/Functions.lean ====
section
/-! DEFINITION. The correctly rounded functions of the tile engine (R41, R42).

A function is enclosed between two exact rationals, and both are rounded to FP32 by RNE. Where both give one value,
that is the correctly rounded result. Three precisions are tried; at the last, the lower end is rounded (log 14). Fixed point: a number N at precision p stands for N / 2^p. -/

namespace Sys2Proof.Machine

/-! ### Enclosures of the constants and elementary functions -/

/-- floor(sqrt n) for n below 4^b, bit by bit. -/
def isqrtBits : Nat → Nat → Nat → Nat
  | 0, _, r => r
  | b + 1, n, r => isqrtBits b n (if (r + 2 ^ b) * (r + 2 ^ b) ≤ n then r + 2 ^ b else r)

/-- floor(sqrt n). -/
def isqrt (n : Nat) : Nat := isqrtBits (Nat.log2 n / 2 + 1) n 0

/-- Sum of floor(pow / (2i + 1)) over the powers of (a / b)^2, from the power on. -/
def oddSeries : Nat → Nat → Nat → Nat → Nat → Nat
  | 0, _, _, _, _ => 0
  | n + 1, pow, i, a, b => pow / (2 * i + 1) + oddSeries n (pow * (a * a) / (b * b)) (i + 1) a b

/-- The alternating series of atan(1 / b). -/
def oddAlternating : Nat → Nat → Nat → Nat → Int
  | 0, _, _, _ => 0
  | n + 1, pow, i, b =>
    let t : Int := (pow / (2 * i + 1) : Nat)
    (if i % 2 = 0 then t else -t) + oddAlternating n (pow / (b * b)) (i + 1) b

/-- Terms that reach precision p in a series whose ratio is at most 1/9. -/
def terms (p : Nat) : Nat := p / 3 + 10

/-- 2 atanh(a / b), a / b at most 1/3: an enclosure. -/
def atanh2 (p a b : Nat) : Nat × Nat :=
  let x := oddSeries (terms p) (2 ^ p * a / b) 0 a b
  (2 * x, 2 * x + (if a = 0 then 0 else 6 * terms p + 8))

/-- ln 2. -/
def ln2 (p : Nat) : Nat × Nat := atanh2 p 1 3

/-- pi, by Machin's formula. -/
def piFix (p : Nat) : Nat × Nat :=
  let n := terms p
  let m := 16 * oddAlternating n (2 ^ p / 5) 0 5 - 4 * oddAlternating n (2 ^ p / 239) 0 239
  ((m - 20 * (n + 3)).toNat, (m + 20 * (n + 3)).toNat)

/-- Sum of the terms of e^r from one term on: r at precision p, below 1. -/
def expSeries : Nat → Nat → Nat → Nat → Nat → Nat
  | 0, _, _, _, _ => 0
  | n + 1, p, r, i, t => t + expSeries n p r (i + 1) (t * r / (2 ^ p * (i + 1)))

/-- e^r for r between two bounds at precision p, both below 3/4. -/
def expFix (p : Nat) (r : Nat × Nat) : Nat × Nat :=
  let n := p / 5 + 20
  let x := expSeries n p r.1 0 (2 ^ p)
  (x, x + 5 * (r.2 - r.1) + 3 * n + 4)

/-- e^y for y between two bounds: 2^k times an enclosure at precision p. -/
def expScaled (p : Nat) (y : Nat × Nat) : Nat × Nat × Nat :=
  let l := ln2 p
  let k := y.1 / l.2
  (k, expFix p (y.1 - k * l.2, y.2 - k * l.1))

/-! ### The functions on a positive finite operand -/

/-- An exact non-negative rational, numerator and denominator. -/
abbrev Frac := Nat × Nat

/-- m * 2^e as a fraction. -/
def fracOf (m : Nat) (e : Int) : Frac := (m * (pow2 e).1, (pow2 e).2)

/-- A fraction at precision p, between two bounds. -/
def fixOf (p : Nat) (x : Frac) : Nat × Nat := (2 ^ p * x.1 / x.2, 2 ^ p * x.1 / x.2 + 1)

/-- 1 / (1 + e^-y) and 1 / (1 + e^y), y >= 0: enclosures. -/
def sigmoid (p : Nat) (neg : Bool) (y : Nat × Nat) : Frac × Frac :=
  let (k, lo, hi) := expScaled p y
  if neg then ((2 ^ p, 2 ^ p + 2 ^ k * hi), (2 ^ p, 2 ^ p + 2 ^ k * lo))
  else ((2 ^ k * lo, 2 ^ p + 2 ^ k * lo), (2 ^ k * hi, 2 ^ p + 2 ^ k * hi))

/-- tanh of y / 2, y >= 0. -/
def tanhHalf (p : Nat) (y : Nat × Nat) : Frac × Frac :=
  let (k, lo, hi) := expScaled p y
  ((2 ^ k * lo - 2 ^ p, 2 ^ k * lo + 2 ^ p), (2 ^ k * hi - 2 ^ p, 2 ^ k * hi + 2 ^ p))

/-- Product of an enclosure by an exact fraction. -/
def fracMul (x : Frac) (y : Frac × Frac) : Frac × Frac :=
  ((x.1 * y.1.1, x.2 * y.1.2), (x.1 * y.2.1, x.2 * y.2.2))

/-- 2 sqrt(2 / pi) (x + 0.044715 x^3), x > 0: twice the argument of the tanh of TGELU. -/
def geluArg (p : Nat) (x : Frac) : Nat × Nat :=
  let q := piFix p
  let c := (isqrt (8 * 2 ^ (3 * p) / q.2), isqrt (8 * 2 ^ (3 * p) / q.1) + 1)
  let wn := x.1 * (1000000 * x.2 * x.2 + 44715 * x.1 * x.1)
  let wd := 1000000 * x.2 * x.2 * x.2
  (c.1 * wn / wd, c.2 * wn / wd + 1)

/-- 2^(k + f), f a fraction below 1: the enclosure of 2^f, to be scaled by 2^k. -/
def exp2Frac (p : Nat) (f : Frac) : Frac × Frac :=
  let l := ln2 p
  let r := expFix p (l.1 * f.1 / f.2, l.2 * f.1 / f.2 + 1)
  ((r.1, 2 ^ p), (r.2, 2 ^ p))

/-- log2 of m * 2^e: an enclosure by signed numbers at precision p. -/
def log2Fix (p m : Nat) (e : Int) : Int × Int :=
  let k := Nat.log2 m
  let a := atanh2 p (m - 2 ^ k) (m + 2 ^ k)
  let l := ln2 p
  let w : Int := ((k : Int) + e) * 2 ^ p
  if a.2 = 0 then (w, w) else (w + (a.1 * 2 ^ p / l.2 : Nat), w + (a.2 * 2 ^ p / l.1 + 1 : Nat))

/-! ### Rounding an enclosure -/

/-- The end of an enclosure nearer to zero, rounded to FP32, and whether both ends round to it. -/
def agree (neg : Bool) (x : Frac × Frac) : Bool × Val × Status :=
  let a := roundQ 0 0 true neg x.1.1 x.1.2
  (decide (a = roundQ 0 0 true neg x.2.1 x.2.2), floatVal 0 a.1, a.2)

/-- The first precision that decides; at the last precision, the end nearer to zero (log 14). -/
def decideRound (f : Nat → Bool × Val × Status) : Val × Status :=
  if (f 200).1 then (f 200).2 else if (f 512).1 then (f 512).2 else (f 1100).2

/-! ### The functions (R41, R42) -/

/-- NaN with NV. -/
def invalid : Val × Status := (.nan false, { nv := true })

/-- One. -/
def one : Val := .fin false 1 0

/-- TEXP2. -/
def fexp2 (x : Val) : Val × Status :=
  match x with
  | .nan _ => invalid
  | .inf neg => (if neg then .zero else .inf false, {})
  | .fin neg m e =>
    let v : Int := Val.scaled (.fin neg m e) (min e 0)
    let d : Nat := (pow2 (min e 0)).2
    if m = 0 then (one, {})
    else if 128 * (d : Int) ≤ v then (.inf false, { ov := true })
    else if v < -200 * (d : Int) then (.zero, {})
    else
      let k := v / d
      let f : Frac := ((v % d).toNat, d)
      let q := pow2 k
      if f.1 = 0 then (let r := roundQ 0 0 true false q.1 q.2; (floatVal 0 r.1, r.2))
      else decideRound fun p => agree false (fracMul q (exp2Frac p f))

/-- TLOG2. -/
def flog2 (x : Val) : Val × Status :=
  match x with
  | .nan _ => invalid
  | .inf neg => if neg then invalid else (.inf false, {})
  | .fin neg m e =>
    if m = 0 then (.inf true, {})
    else if neg then invalid
    else if m = 2 ^ Nat.log2 m ∧ (Nat.log2 m : Int) + e = 0 then (.zero, {})
    else decideRound fun p =>
      let r := log2Fix p m e
      if r.2 ≤ 0 then agree true (((-r.2).toNat, 2 ^ p), ((-r.1).toNat, 2 ^ p))
      else agree false ((r.1.toNat, 2 ^ p), (r.2.toNat, 2 ^ p))

/-- TRCP. -/
def frcp (x : Val) : Val × Status :=
  match x with
  | .nan _ => invalid
  | .inf neg => (.fin neg 0 0, {})
  | .fin neg m e =>
    if m = 0 then (.inf neg, {})
    else
      let p := pow2 e
      let r := roundQ 0 0 true neg p.2 (m * p.1)
      (floatVal 0 r.1, r.2)

/-- r * 2^e with a remainder below, rounded once. -/
def sticky (r : Nat) (exact : Bool) (e : Int) : Val × Status :=
  let c := roundTo 0 0 true (.fin false (2 * r + bit (!exact)) (e - 1))
  (floatVal 0 c.1, c.2)

/-- TRSQ. -/
def frsq (x : Val) : Val × Status :=
  match x with
  | .nan _ => invalid
  | .inf neg => if neg then invalid else (.zero, {})
  | .fin neg m e =>
    if m = 0 then (.inf neg, {})
    else if neg then invalid
    else
      let a := if e % 2 = 0 then (m, e) else (2 * m, e - 1)
      let r := isqrt (2 ^ 120 / a.1)
      sticky r (r * r * a.1 == 2 ^ 120) (-60 - a.2 / 2)

/-- TSQRT. -/
def fsqrt (x : Val) : Val × Status :=
  match x with
  | .nan _ => invalid
  | .inf neg => if neg then invalid else (.inf false, {})
  | .fin neg m e =>
    if m = 0 then (.fin neg 0 0, {})
    else if neg then invalid
    else
      let a := if e % 2 = 0 then (m, e) else (2 * m, e - 1)
      let r := isqrt (a.1 * 2 ^ 60)
      sticky r (r * r == a.1 * 2 ^ 60) (a.2 / 2 - 30)

/-- The magnitude of a finite value is at least n. -/
def atLeast (n m : Nat) (e : Int) : Bool := decide (n * (pow2 e).2 ≤ m * (pow2 e).1)

/-- TSIG. -/
def fsig (x : Val) : Val × Status :=
  match x with
  | .nan _ => invalid
  | .inf neg => (if neg then .zero else one, {})
  | .fin neg m e =>
    if m = 0 then (.fin false 1 (-1), {})
    else if atLeast 200 m e then (if neg then .zero else one, {})
    else decideRound fun p => agree false (sigmoid p neg (fixOf p (fracOf m e)))

/-- TTANH. -/
def ftanh (x : Val) : Val × Status :=
  match x with
  | .nan _ => invalid
  | .inf neg => (.fin neg 1 0, {})
  | .fin neg m e =>
    if m = 0 then (x, {})
    else if atLeast 200 m e then (.fin neg 1 0, {})
    else decideRound fun p => agree neg (tanhHalf p (fixOf p (fracOf (2 * m) e)))

/-- TSILU. -/
def fsilu (x : Val) : Val × Status :=
  match x with
  | .nan _ => invalid
  | .inf neg => (if neg then .fin true 0 0 else .inf false, {})
  | .fin neg m e =>
    if m = 0 then (x, {})
    else if atLeast 400 m e then (if neg then .fin true 0 0 else x, {})
    else
      decideRound fun p =>
        agree neg (fracMul (fracOf m e) (sigmoid p neg (fixOf p (fracOf m e))))

/-- TGELU. -/
def fgelu (x : Val) : Val × Status :=
  match x with
  | .nan _ => invalid
  | .inf neg => (if neg then .fin true 0 0 else .inf false, {})
  | .fin neg m e =>
    if m = 0 then (x, {})
    else if atLeast 16 m e then (if neg then .fin true 0 0 else x, {})
    else
      decideRound fun p =>
        agree neg (fracMul (fracOf m e) (sigmoid p neg (geluArg p (fracOf m e))))

end Sys2Proof.Machine
end

