-- ==== Sys2Proof/Machine/Branch.lean ====
section
/-! DEFINITION. Branches and calls (R90, R173 to R175). -/

namespace Sys2Proof.Machine

/-- What a transfer finds at its target: nothing wrong, or the word that is no header (R79, reason 6). A target that
cannot be fetched is entered, and its fetch raises the cause there (R390, log 17). -/
def State.badTarget (s : State) (k hdr : Nat) : Option Nat :=
  if hdr % 4 ≠ 0 then some 0
  else
    match (s.fetchWord k hdr).2 with
    | .ok w => if isHeader w then none else some w
    | .error _ => none

/-- The cause a fetch of the word at a target raises, none where the word can be fetched (R390). -/
def State.targetFail (s : State) (k hdr : Nat) : Option MemFail :=
  match (s.fetchWord k hdr).2 with
  | .ok _ => none
  | .error f => some f

/-- A transfer to a header, or cause 0x03, reason 6, with the instruction word; the instruction does not complete
then (R79, R173, R174). -/
def State.goto (s : State) (k : Nat) (st : StreamId) (i : Instr) (hdr : Nat) (f : State → State) : State :=
  match s.badTarget k hdr with
  | some _ => s.raise k st 0x03 (malformed 6 (instrWord i).toNat)
  | none => (f s).retireTo k st hdr

/-- A conditional branch (R173). -/
def branch (i : Instr) (a b : Reg) (o : BitVec 12) (cond : Word → Word → Bool) (s : State) : Out :=
  onTurn s fun k st =>
    if s.anyPending k st [a, b] then s.waitOn k st .register
    else if cond (s.reg k st a) (s.reg k st b) then s.goto k st i (target (s.pos k st).hdr o) id
    else s.retire k st 2

/-- Pushes a return header and goes to a target; cause 0x0C on a ninth push, after the target's own check (R57,
R174). -/
def State.callTo (s : State) (k : Nat) (st : StreamId) (i : Instr) (hdr : Nat) : State :=
  match s.badTarget k hdr with
  | some _ => s.raise k st 0x03 (malformed 6 (instrWord i).toNat)
  | none =>
    let l := s.stackOf k st
    if 8 ≤ l.length then s.raise k st 0x0C (word l.length)
    else (s.setStack k st ((s.pos k st).nextHeader :: l)).retireTo k st hdr

/-- A block address held in a register: bits [56:0], with [63:57] zero (R90). -/
def blockAddress (v : Word) : Option Nat := if v.toNat / 2 ^ 57 = 0 then some v.toNat else none

/-- BEQ (R173). -/
def execBeq (a b : Reg) (o : BitVec 12) (s : State) : Out := branch (.beq a b o) a b o condEq s

/-- BNE (R173). -/
def execBne (a b : Reg) (o : BitVec 12) (s : State) : Out := branch (.bne a b o) a b o condNe s

/-- BLT (R173). -/
def execBlt (a b : Reg) (o : BitVec 12) (s : State) : Out := branch (.blt a b o) a b o condLt s

/-- BGE (R173). -/
def execBge (a b : Reg) (o : BitVec 12) (s : State) : Out := branch (.bge a b o) a b o condGe s

/-- BLTU (R173). -/
def execBltu (a b : Reg) (o : BitVec 12) (s : State) : Out := branch (.bltu a b o) a b o condLtu s

/-- BGEU (R173). -/
def execBgeu (a b : Reg) (o : BitVec 12) (s : State) : Out := branch (.bgeu a b o) a b o condGeu s

/-- JMP (R174). -/
def execJmp (o : BitVec 12) (s : State) : Out :=
  onTurn s fun k st => s.goto k st (.jmp o) (target (s.pos k st).hdr o) id

/-- CALL (R174). -/
def execCall (o : BitVec 12) (s : State) : Out :=
  onTurn s fun k st => s.callTo k st (.call o) (target (s.pos k st).hdr o)

/-- RET (R174): on an empty stack cause 0x0C; a target that is no header leaves its entry on the stack. -/
def execRet (s : State) : Out :=
  onTurn s fun k st =>
    match s.stackOf k st with
    | [] => s.raise k st 0x0C (word 16)
    | h :: l => s.goto k st .ret h fun s => s.setStack k st l

/-- JMPR (R174). -/
def execJmpr (a : Reg) (s : State) : Out :=
  onTurn s fun k st =>
    if s.anyPending k st [a] then s.waitOn k st .register
    else
      match blockAddress (s.reg k st a) with
      | none => s.raise k st 0x03 (malformed 6 (instrWord (.jmpr a)).toNat)
      | some h => s.goto k st (.jmpr a) h id

/-- CALLR (R174). -/
def execCallr (a : Reg) (s : State) : Out :=
  onTurn s fun k st =>
    if s.anyPending k st [a] then s.waitOn k st .register
    else
      match blockAddress (s.reg k st a) with
      | none => s.raise k st 0x03 (malformed 6 (instrWord (.callr a)).toNat)
      | some h => s.callTo k st (.callr a) h

end Sys2Proof.Machine
end

