-- ==== Sys2Proof/Machine/Remote.lean ====
section
/-! DEFINITION. The fabric: routes, additions at an element's home, and chunks that arrive for a device phaser
(R290, R294, R412 to R417). -/

namespace Sys2Proof.Machine

/-- Port n of Ibwald (R412). -/
def State.port (s : State) (n : Nat) : Port := tget Port.reset s.ports n

/-- The port that traffic to a device leaves by (R413): the lowest listed one that is up. -/
def State.route (s : State) (dev : Nat) : Option Nat :=
  (List.range 12).find? fun n => (tget 0 s.routes (dev / 256 % 2048)).testBit n && (s.port n).state == 2

/-- One element added at its home (R290): an exact sum and one RNE rounding to the format. -/
def addElem (f old : Nat) (x : Val × Status) : Nat × Status :=
  let r := valSum [codeVal f old, x.1]
  let y := roundTo f 0 true r.1
  (y.1, (x.2.or r.2).or y.2)

/-- Adds one element whose bytes live at some locations, in one update at its home. -/
def State.addAt (s : State) (key f : Nat) (ls : List Loc) (x : Val × Status) : State × Status :=
  let r := addElem f (leNat (ls.map (s.homeGet key))) x
  (s.homeSetAll key (ls.zip (leBytes ls.length r.1)), r.2)

/-! ### Ordered mode (R416) -/

/-- Bytes that an element of a chunk takes in memory; a nibble's byte counts whole. -/
def elemBytes (c : RemoteChunk) (e : RemoteElem) : Nat :=
  if c.add then (if c.bf16 then 2 else 4) else if e.half.isSome then 1 else e.bytes.length

/-- Bytes of a chunk at its destination (R288): two nibbles make one. -/
def chunkBytes (c : RemoteChunk) : Nat :=
  let whole := c.elems.filter fun e => e.half.isNone
  (whole.map (elemBytes c)).foldl (· + ·) 0 + (c.elems.length - whole.length + 1) / 2

/-- The device is one of the phaser's contributors. -/
def Phaser.contributes (p : Phaser) (dev : Nat) : Bool :=
  !p.ordEn || decide (p.ordLo ≤ dev ∧ dev < p.ordLo + p.ordNsrc)

/-- The contributor's turn has come: every lower one has delivered its share. -/
def Phaser.turnOf (p : Phaser) (dev : Nat) : Bool :=
  !p.ordEn || (List.range (dev - p.ordLo)).all fun r =>
    match p.posted with
    | some e => decide (e / p.ordNsrc ≤ tget 0 p.shares r)
    | none => false

/-- A phaser that counts bytes of a contributor. -/
def Phaser.deliver (p : Phaser) (dev n : Nat) : Phaser :=
  { p with arrived := p.arrived + n,
           shares := if p.ordEn then tset 0 p.shares (dev - p.ordLo) (tget 0 p.shares (dev - p.ordLo) + n)
                     else p.shares }

/-- A device phaser, by its index. -/
def State.dphaser (s : State) (n : Nat) : Phaser := tget Phaser.reset s.dphasers n

/-! ### Arrival -/

/-- The homes of a chunk's elements, through the tables of the partition that owns its phaser (log 21); none when
one of them fails. -/
def State.chunkHomes (s : State) (cl part : Nat) (c : RemoteChunk) :
    List RemoteElem → State × Option (List (List Loc × RemoteElem))
  | [] => (s, some [])
  | e :: es =>
    match s.locateVirtual cl part e.addr (elemBytes c e) ⟨false, true, false, false, none⟩ with
    | (s1, .error _) => (s1, none)
    | (s1, .ok ls) =>
      match s1.chunkHomes cl part c es with
      | (s2, some l) => (s2, some ((ls, e) :: l))
      | r => r

/-- A byte with one of its nibbles replaced (R73). -/
def withNibble (old : Nat) (hi : Bool) (code : Nat) : Nat :=
  if hi then old % 16 + 16 * (code % 16) else old / 16 * 16 + code % 16

/-- Performs the elements of a chunk. The status of additions for another device is that device's (log 21). -/
def State.chunkWrite (s : State) (key : Nat) (c : RemoteChunk) : List (List Loc × RemoteElem) → State
  | [] => s
  | (ls, e) :: r =>
    (if c.add then (s.addAt key (if c.bf16 then 1 else 0) ls (fp32 (BitVec.ofNat 32 (leNat e.bytes)), {})).1
     else
      match e.half with
      | some hi => s.homeSetAll key (ls.zip [BitVec.ofNat 8 (withNibble (leNat (ls.map (s.homeGet key))) hi (leNat e.bytes))])
      | none => s.homeSetAll key (ls.zip e.bytes)).chunkWrite key c r

/-- A chunk lands: its elements are performed, and its bytes counted (R288, R294). A chunk that its destination
refuses changes nothing here. -/
def State.chunkLand (s : State) (source : Nat) (c : RemoteChunk) : State :=
  let p := s.dphaser (c.phaser - 65)
  let b := s.pcb p.part
  match s.chunkHomes b.firstCluster p.part c c.elems with
  | (s1, none) => s1
  | (s1, some l) =>
    let s2 := (s1.chargeMove p.part ioDie (l.flatMap Prod.fst)).chunkWrite b.key c l
    { s2 with dphasers := tput s2.dphasers (c.phaser - 65) ((s2.dphaser (c.phaser - 65)).deliver source (chunkBytes c)) }

/-- The chunk names a phaser of this device that takes it: allocated, in byte mode, its source a contributor. -/
def State.chunkTaken (s : State) (source : Nat) (c : RemoteChunk) : Bool :=
  let p := s.dphaser (c.phaser - 65)
  decide (65 ≤ c.phaser ∧ c.phaser ≤ 320) && p.alloc && p.bytes && p.contributes source

/-- Serves chunks that wait for their turn, oldest first (R416). -/
def State.serveInbound (s : State) : Nat → State
  | 0 => s
  | fuel + 1 =>
    match s.inbound.find? fun x => (s.dphaser (x.2.phaser - 65)).turnOf x.1 with
    | none => s
    | some x =>
      let s1 := { s with inbound := s.inbound.erase x }
      (if s1.chunkTaken x.1 x.2 then s1.chunkLand x.1 x.2 else s1).serveInbound fuel

end Sys2Proof.Machine
end

