-- ==== Sys2Proof/Machine/Phaser.lean ====
section
/-! DEFINITION. Phasers: registration, signals, waits, byte counts and the completion of a phase, with the carve-outs
that take effect there (R65, R146, R147, R157, R194 to R199, R212). -/

namespace Sys2Proof.Machine

/-! ### Naming a phaser -/

/-- %trapinfo of cause 0x0F (R199). -/
def phaserInfo (n reason : Nat) : Word := word (n % 512 + 65536 * reason)

/-- The phaser a register names, or the reason of R199. -/
def State.phaserArg (s : State) (k : Nat) (v : Word) : Except Nat Nat :=
  if v.toNat / 512 ≠ 0 ∨ ¬ (1 ≤ v.toNat ∧ v.toNat ≤ 320) then .error 1
  else if s.phaserOwned (clusterOf k) (s.core k).part v.toNat then .ok v.toNat
  else .error 2

/-- The registration of a stream on a phaser. -/
def State.member (s : State) (k : Nat) (st : StreamId) (p : Phaser) : Option Participant :=
  p.members.find? (s.isMember k st)

/-! ### Completion of a phase (R197, R198) -/

/-- Phase n of a phaser has completed (R196). -/
def Phaser.done (p : Phaser) (n : Nat) : Bool := decide ((p.phase + 2 ^ 32 - 1 + 2 ^ 32 - n % 2 ^ 32) % 2 ^ 32 < 2 ^ 31)

/-- BIND of a layout entry of the point a core runs. -/
def Core.bindOf (c : Core) (num : Nat) : Option Nat :=
  match c.point with
  | some p => (p.layouts[num]?).map fun e => (parseLayout num e).bind
  | none => none

/-- The layout a copy or a matrix instruction writes memory through. -/
def writtenLayout (i : Instr) : Option Nat :=
  match i with
  | .hst _ _ l _ _ => some l.toNat
  | .hsta _ _ l _ _ => some l.toNat
  | .hsct _ _ l _ _ => some l.toNat
  | .hcpy d _ _ => some d.toNat
  | .hsend d _ _ => some d.toNat
  | .hfill d _ => some d.toNat
  | .tdrainm _ l _ _ _ => some l.toNat
  | _ => none

/-- The access writes memory. -/
def AccKind.writes (a : AccKind) : Bool :=
  match a with
  | .store => true
  | .atomic .. => true
  | .fifoStore _ => true
  | .load .. => false
  | .fifoLoad .. => false
  | .returning _ => false

/-- A stream of a core still has to perform a write bound to a phaser that it issued before an arrival number (R157). -/
def Core.owesWrite (c : Core) (st : StreamId) (n before : Nat) : Bool :=
  let bound (i : Instr) : Bool :=
    match writtenLayout i with
    | some l => c.bindOf l == some n
    | none => false
  (c.stream st).accesses.any (fun a => a.kind.writes && a.bind == n && decide (a.order0 < before)) ||
    (st == .h && c.copies.any fun p => decide (p.issued < before) && bound p.instr) ||
    (st == .t && c.mat.any fun m => decide (m.issued < before) && bound m.instr)

/-- A write that a signal releases into a phase of phaser n has still to be performed (R157): on the core that gave the signal, or
in the image of its saved context. -/
def State.owesWrite (s : State) (n : Nat) (g : Gate) : Bool :=
  if (s.core g.core).pointKey = (g.recNo, g.serial) then (s.core g.core).owesWrite g.st n g.before
  else s.saves.any fun v => v.2.images.any fun i =>
    i.core == g.core && (i.recNo, i.serial) == (g.recNo, g.serial) && i.image.owesWrite g.st n g.before

/-- A pending CARVE waits for a phase of a phaser. -/
def CarveReq.due (q : CarveReq) (n phase : Nat) : Bool := q.phaser == n && q.phase == phase

/-- Cores that a phaser reaches (R194), among those listed. -/
def State.reached (s : State) (cl n : Nat) : List (Nat × Core) :=
  s.cores.filter fun p => decide (64 < n) || clusterOf p.1 == cl

/-- Layouts that a copy or a TDRAINM reads or writes memory through. -/
def usedLayouts (i : Instr) : List Nat :=
  match i with
  | .hld _ l _ _ => [l.toNat]
  | .hst _ _ l _ _ => [l.toNat]
  | .hsta _ _ l _ _ => [l.toNat]
  | .hgth _ l _ _ => [l.toNat]
  | .hsct _ _ l _ _ => [l.toNat]
  | .hcpy d y _ => [d.toNat, y.toNat]
  | .hsend d y _ => [d.toNat, y.toNat]
  | .hfill d _ => [d.toNat]
  | .tdrainm _ l _ _ _ => [l.toNat]
  | _ => []

/-- An instruction of core j that goes through a layout reaches the scratch of core k: a gather or scatter that has not
read its index list reads its own (R291). -/
def State.usesScratch (s : State) (j k : Nat) (i : Instr) : Bool :=
  (usedLayouts i).any fun n =>
    let y := s.rawLayout j n
    (y.space == 0 && j == k) || (y.space == 1 && twinOf j == k)

/-- A copy that has still to read its index list in core scratch. -/
def Copy.listDue (p : Copy) : Bool :=
  !p.started && match p.instr with
  | .hgth .. => true
  | .hsct .. => true
  | _ => false

/-- An access to the scratch of core k that was issued before an arrival number, by the core itself or by its twin, has not completed
(R146): MEM and AT accesses, a full/empty operation that waits for its word among them, copies, TDRAINM, and the planes of AMASK
and ARGRW. -/
def State.scratchBusy (s : State) (k before : Nat) : Bool :=
  let here (ls : List Loc) : Bool := ls.any fun l => match l with
    | .scratch j _ => j == k
    | _ => false
  s.cores.any fun x =>
    (streamIds.any fun st => (x.2.stream st).accesses.any (fun a => decide (a.order0 < before) && here a.locs) ||
      match (x.2.stream st).wait with
      | some (.word _ _ _ ls, n) => decide (n < before) && here ls
      | _ => false) ||
    (x.2.copies.any fun p => decide (p.issued < before) && p.status.isNone && (s.usesScratch x.1 k p.instr || (x.1 == k && p.listDue))) ||
    (x.2.mat.any fun m => decide (m.issued < before) && isDrainm m.instr && !m.ready && s.usesScratch x.1 k m.instr) ||
    (x.1 == k && x.2.arr.any fun o => decide (o.issued < before) && o.reading)

/-- Accesses to the scratch of core k that were issued before its last change of the tile count have still to complete: what they
reach of the old size is there until then, and a further change waits (R146, log 71). -/
def State.resizing (s : State) (k : Nat) : Bool :=
  match (s.core k).resized with
  | some (b, _) => s.scratchBusy k b
  | none => false

/-- The current phase of a phaser may complete (R197, R198): the writes its signals release have been performed
(R157). -/
def State.phaseReady (s : State) (cl n : Nat) : Bool :=
  let p := s.phaser cl n
  if p.bytes then
    match p.posted with
    | some e => decide (e ≤ p.arrived)
    | none => false
  else
    (p.signalled || !p.gates.isEmpty) && !p.members.any (fun m => m.sig && m.cursor == p.phase) && !p.gates.any (s.owesWrite n)

/-- A participant at a completion: a pending PHROLE takes effect, and a new signaller starts at the new phase
(R195). -/
def Participant.turn (m : Participant) (phase : Nat) : Participant :=
  match m.newRole with
  | none => m
  | some (sg, wt) => { m with sig := sg, wait := wt, newRole := none, cursor := if sg && !m.sig then phase else m.cursor }

/-- A phaser whose current phase completes. -/
def Phaser.complete (p : Phaser) : Phaser :=
  let next := (p.phase + 1) % 2 ^ 32
  { p with
    phase := next, signalled := false, gates := [], posted := none, arrived := 0, shares := [],
    excess := match p.posted with
      | some e => p.arrived - e
      | none => 0,
    members := p.members.map fun m => m.turn next }

/-- An acquire: the core discards every clean byte of its cache, the data bound to the acquired object among them
(R157, log 8). -/
def State.acquire (s : State) (k : Nat) : State := s.discard k fun _ _ => true

/-- The cache holds, in the sector of an address, a byte stored under a binding since it was last written home. -/
def Core.boundSector (c : Core) (n pa : Nat) : Bool := c.cache.any fun x => x.1 / 32 == pa / 32 && x.2.binds.contains n

/-- Writes home what a core has stored under a binding, whatever other bindings the byte was stored under since (R157). What the
sector holds besides goes with it, so that no store is torn (R150). -/
def State.release (s : State) (k n : Nat) : State := s.flush k fun pa _ => (s.core k).boundSector n pa

/-- Writes home what the cores of some signals cache under a binding. -/
def State.releaseAll (s : State) (n : Nat) : List Gate → State
  | [] => s
  | g :: r => (s.release g.core n).releaseAll n r

/-- A signal whose phase completes stands: for a PHNEXT, which a stop would have undone before, it is now an action of R135. -/
def State.commitGates (s : State) : List Gate → State
  | [] => s
  | g :: r => (if (s.core g.core).pointKey = (g.recNo, g.serial) then s.commit g.core else s).commitGates r

/-- The overrun trap of a wait on a byte-mode phase that completed with an excess (R198): %trappc names the instruction
after the wait, at which the stream stands. -/
def State.overrunTrap (s : State) (k : Nat) (st : StreamId) (n ph : Nat) : Option TrapRec :=
  let p := s.phaser (clusterOf k) n
  let x := s.pos k st
  if p.bytes ∧ p.excess ≠ 0 ∧ (ph + 1) % 2 ^ 32 = p.phase then
    some ⟨0x10, word (min p.excess (2 ^ 40 - 1) + 2 ^ 40 * n), st, x.hdr, x.off, (s.stream k st).seq⟩
  else none

/-- Raises the overrun trap of a wait that has completed (R198). -/
def State.overrun (s : State) (k : Nat) (st : StreamId) (n ph : Nat) : State :=
  match s.overrunTrap k st n ph with
  | some t => s.raiseAt k st t.cause t.info t.hdr t.off
  | none => s

/-- A wait on phase ph has completed (R196): PHWAIT acquires, as does PHNEXT of a waiter, which also gets its result and
its cursor. -/
def State.doneWait (s : State) (k : Nat) (st : StreamId) (n ph : Nat) (rd : Option Reg) : State :=
  match rd with
  | none => (s.acquire k).retire k st 2
  | some d =>
    let waiter := match s.member k st (s.phaser (clusterOf k) n) with
      | some m => m.wait
      | none => false
    let s1 := if waiter then s.acquire k else s
    ((s1.setMember k st n fun m => { m with cursor := (ph + 1) % 2 ^ 32 }).setReg k st d (word ph)).retire k st 2

/-- A wait on phase ph completes, and then the overrun trap is raised (R196, R198). -/
def State.endPhaseWait (s : State) (k : Nat) (st : StreamId) (n ph : Nat) (rd : Option Reg) : State :=
  (s.doneWait k st n ph rd).overrun k st n ph

/-- A stream waits for a phase that has completed. -/
def State.overdue (s : State) (w : Nat × Nat × StreamId × WaitOn) : Bool :=
  match w with
  | (_, k, _, .phase n ph _) => (s.phaser (clusterOf k) n).done ph
  | _ => false

/-- A stream waits for a phase of this phaser that has completed. -/
def State.satisfied (s : State) (cl n : Nat) (w : Nat × Nat × StreamId × WaitOn) : Bool :=
  match w with
  | (_, k, _, .phase m _ _) => m == n && (decide (64 < n) || clusterOf k == cl) && s.overdue w
  | _ => false

/-- Completes the waits of a list (R197). -/
def State.doneWaits (s : State) : List (Nat × Nat × StreamId × WaitOn) → State
  | [] => s
  | (_, k, st, .phase n ph rd) :: r => (s.doneWait k st n ph rd).doneWaits r
  | _ :: r => s.doneWaits r

/-- A trap that a boundary brings: a number that puts those of one core in the order C, T, A, H (R368), its core, whether the
handler issued the instruction, and the trap. -/
abbrev LateTrap : Type := Nat × Nat × Bool × TrapRec

/-- The overrun traps of waits that have completed (R198). -/
def State.overrunTraps (s : State) (l : List (Nat × Nat × StreamId × WaitOn)) : List LateTrap :=
  l.filterMap fun w => match w with
    | (_, k, st, .phase n ph _) => (s.overrunTrap k st n ph).map fun t => (2 * st.num + 1, k, (s.core k).onHandler st, t)
    | _ => none

/-- Raises traps of one boundary in the order of a list: at a core the first is delivered and the others are held (R368). A core that
a double fault has stopped by then raises none. -/
def State.raiseEach (s : State) : List LateTrap → State
  | [] => s
  | (_, k, priv, t) :: r =>
    (if (s.core k).halted then s else s.raiseLate k t.stream priv t.cause t.info t.hdr t.off).raiseEach r

/-! ### Carve-out (R65, R146, R147) -/

/-- A tile is empty and unclaimed. -/
def Tile.idle (t : Tile) : Bool := !t.full && t.reads == 0 && !t.consuming && !t.writing

/-- A core's tile at a number. -/
def Core.tile (c : Core) (t : Nat) : Tile := tget Tile.reset c.tiles t

/-- Core scratch, tiles and cache for a new tile count (R65, R146): a tile that is new is zero and empty, whatever an instruction
still wrote to its number while it was gone. What issues from now on sees the new size; the bytes that the change removes are out of
its reach, and gone for good by the next change, while accesses issued before still find them. -/
def State.setCount (s : State) (k n : Nat) : State :=
  let s1 := s.emptyCache k
  let c := s1.core k
  let size := c.scratchSize
  s1.setCore k { c with ntiles := n, resized := some (s1.order, size), tiles := tbelow c.tiles (min c.ntiles n), scratch := tbelow c.scratch size, scratchFull := tbelow c.scratchFull (size / 8), scratchBad := tbelow c.scratchBad size }

/-- A tile that a carve-out removes is full or claimed (R65). -/
def Core.carveFails (c : Core) (n : Nat) : Bool := (List.range c.ntiles).any fun t => decide (n ≤ t) && !(c.tile t).idle

/-- A pending CARVE takes effect, an action of R135, or finds that a tile it removes is in use, which is cause 0x18, reason 2, at its
stream (R65, R147). Where the point that issued it has ended, there is no stream to raise it at, and the count just stays
(log 73). -/
def State.applyCarve (s : State) (k : Nat) (q : CarveReq) : State × Option TrapRec :=
  let c := s.core k
  let s0 := s.setCore k { c with carve := c.carve.filter (· != q) }
  let mine : Bool := c.pointKey == (q.recNo, q.serial)
  if q.count = c.ntiles then (s0, none)
  else if c.carveFails q.count then (s0, if mine then some ⟨0x18, word 2, q.st, q.hdr, q.off, (c.stream q.st).seq⟩ else none)
  else (if mine then (s0.setCount k q.count).commit k else s0.setCount k q.count, none)

/-- CARVEs of some cores take effect; the traps they raise. -/
def State.applyCarves (s : State) : List (Nat × CarveReq) → State × List LateTrap
  | [] => (s, [])
  | (k, q) :: r =>
    let x := s.applyCarve k q
    let y := x.1.applyCarves r
    (y.1, (x.2.toList.map fun t => (2 * q.st.num, k, q.priv, t)) ++ y.2)

/-- What completed phases bring at the cores: waits complete, CARVEs take effect, and then the traps of both are raised (R147, R197,
R198, R368). -/
def State.boundary (s : State) (waits : List (Nat × Nat × StreamId × WaitOn)) (carves : List (Nat × CarveReq)) : State :=
  let x := (s.doneWaits waits).applyCarves carves
  x.1.raiseEach (sortByOrder (x.2 ++ x.1.overrunTraps waits))

/-- The CARVEs of cores whose clock runs that a completed phase of a phaser brings into effect. One waits for the accesses that an
earlier change has to wait for (R146). -/
def State.dueCarves (s : State) (cl n phase : Nat) : List (Nat × CarveReq) :=
  (s.reached cl n).filterMap fun x =>
    if s.clocked x.1 && !s.resizing x.1 then (x.2.carve.find? fun q => q.due n phase).map fun q => (x.1, q) else none

/-- The current phase of a phaser completes (R197): writes are released, PHROLE takes effect, every wait whose condition
holds completes, CARVE takes effect, the traps of that step are raised, and chunks that wait for the next phase are served
(R416). Cores whose clock is stopped follow when it runs again (R404). -/
def State.completePhase (s : State) (cl n : Nat) : State :=
  let p := s.phaser cl n
  let s1 := ((s.releaseAll n p.gates).setPhaser cl n p.complete).commitGates p.gates
  let woken := (sortByOrder s1.waiters).filter fun w => s1.clocked w.2.1 && s1.satisfied cl n w
  let s2 := s1.boundary woken (s1.dueCarves cl n p.phase)
  s2.serveInbound s2.inbound.length

/-- The first pending CARVE of a core whose phase has completed, unless it waits for the accesses of an earlier change (R146). -/
def State.lateCarve (s : State) (k : Nat) : Option CarveReq :=
  if s.resizing k then none else (s.core k).carve.find? fun q => (s.phaser (clusterOf k) q.phaser).done q.phase

/-- That CARVE with its core. -/
def State.lateCarves (s : State) (k : Nat) : List (Nat × CarveReq) := (s.lateCarve k).toList.map fun q => (k, q)

/-- Cores whose clock runs and whose CARVE of a completed phase of a phaser takes effect late. -/
def State.lateCores (s : State) (cl n : Nat) : List Nat :=
  ((s.reached cl n).filter fun x => s.clocked x.1 && (s.lateCarve x.1).any fun q => q.phaser == n).map fun x => x.1

/-- Cores follow the phases that completed while their clock was stopped (R404) or their context stood saved (R147): waits that are
satisfied complete (R190), and CARVEs take effect. -/
def State.catchUp (s : State) (l : List Nat) : State :=
  s.boundary ((sortByOrder s.waiters).filter fun w => l.contains w.2.1 && s.overdue w) (l.flatMap s.lateCarves)

/-- PHASE_COMPLETE (R197), of phaser `n` as BIND numbers it; a cluster phaser waits while its clock is stopped (R404). Where no phase
completes, CARVEs of a phase that has completed take effect once the accesses they waited for are done (R146). -/
def execPhaseComplete (cl n : Nat) (s : State) : Out :=
  .next (if s.phaseReady cl n && !(decide (n ≤ 64) && (s.cluster cl).stopped) then s.completePhase cl n
    else s.boundary [] ((s.lateCores cl n).flatMap s.lateCarves))

/-! ### Leaving a phaser -/

/-- Removes a stream from a phaser (R195): a signaller that leaves its phase unsignalled counts toward it (R197). -/
def State.leavePhaser (s : State) (k : Nat) (st : StreamId) (n : Nat) : State :=
  let p := s.phaser (clusterOf k) n
  match s.member k st p with
  | none => s
  | some m =>
    s.setPhaser (clusterOf k) n { p with members := p.members.filter (fun x => !s.isMember k st x), signalled := p.signalled || (m.sig && m.cursor == p.phase) }

/-- Removes a stream from phasers. -/
def State.leavePhasers (s : State) (k : Nat) (st : StreamId) : List Nat → State
  | [] => s
  | n :: r => (s.leavePhaser k st n).leavePhasers k st r

/-- Numbers of the phasers listed that a core reaches. -/
def State.phaserNumbers (s : State) (cl : Nat) : List Nat :=
  (s.cluster cl).phasers.map (fun p => p.1 + 1) ++ s.dphasers.map fun p => p.1 + 65

/-! ### The instructions -/

/-- A phaser instruction whose register values are in hand: the number is read, then its object (R188, R194). -/
def onPhaser (reads : List Reg) (a : Reg) (f : Nat → StreamId → Nat → State → State) (s : State) : Out :=
  onTurn s fun k st =>
    if s.anyPending k st (a :: reads) then s.waitOn k st .register
    else
      match s.phaserArg k (s.reg k st a) with
      | .error r => s.raise k st 0x0F (phaserInfo (s.reg k st a).toNat r)
      | .ok n => f k st n s

/-- Raises cause 0x0F with a reason. -/
def State.phaserTrap (s : State) (k : Nat) (st : StreamId) (n reason : Nat) : State :=
  s.raise k st 0x0F (phaserInfo n reason)

/-- A phaser instruction of a registered stream; otherwise reason 4. -/
def State.registered (s : State) (k : Nat) (st : StreamId) (n : Nat) (f : Participant → State) : State :=
  match s.member k st (s.phaser (clusterOf k) n) with
  | none => s.phaserTrap k st n 4
  | some m => f m

/-- PHREG (R195). -/
def execPhreg (a : Reg) (r : BitVec 2) (s : State) : Out :=
  onPhaser [] a (fun k st n s =>
    let p := s.phaser (clusterOf k) n
    if (s.member k st p).isSome then s.phaserTrap k st n 3
    else if r.getLsbD 0 && p.bytes then s.phaserTrap k st n 6
    else
      let key := (s.core k).pointKey
      let m : Participant := ⟨k, st, r.getLsbD 0, r.getLsbD 1, p.phase, none, key.1, key.2⟩
      (s.setPhaser (clusterOf k) n { p with members := p.members ++ [m] }).retire k st 2) s

/-- PHROLE (R195). -/
def execPhrole (a : Reg) (r : BitVec 2) (s : State) : Out :=
  onPhaser [] a (fun k st n s =>
    s.registered k st n fun _ =>
      if r.getLsbD 0 && (s.phaser (clusterOf k) n).bytes then s.phaserTrap k st n 6
      else (s.setMember k st n fun m => { m with newRole := some (r.getLsbD 0, r.getLsbD 1) }).retire k st 2) s

/-- PHDROP (R195), an action of R135. -/
def execPhdrop (a : Reg) (s : State) : Out :=
  onPhaser [] a (fun k st n s =>
    s.registered k st n fun _ => ((s.leavePhaser k st n).commit k).retire k st 2) s

/-- A signaller signals its phase, which is current (R196): its earlier bound writes are released into it (R157). -/
def State.signalPhase (s : State) (k : Nat) (st : StreamId) (n : Nat) : State :=
  let p := s.phaser (clusterOf k) n
  let key := (s.core k).pointKey
  (s.setPhaser (clusterOf k) n { p with gates := p.gates ++ [⟨k, st, s.order, key.1, key.2⟩] }).setMember k st n
    fun m => { m with cursor := (m.cursor + 1) % 2 ^ 32 }

/-- A stream waits on something already: its instruction has issued and passed its checks (R188, R190). -/
def State.waitsFor (s : State) (k : Nat) (st : StreamId) (p : WaitOn → Bool) : Bool :=
  match (s.stream k st).wait with
  | some (w, _) => p w
  | none => false

/-- PHSIG (R196), an action of R135: the role is required at issue alone. A stream that is no signaller meets a byte-mode phaser with
reason 6 and not 5 (log 79). -/
def execPhsig (a : Reg) (s : State) : Out :=
  onPhaser [] a (fun k st n s =>
    let p := s.phaser (clusterOf k) n
    s.registered k st n fun m =>
      if p.bytes then s.phaserTrap k st n 6
      else if !m.sig && !s.waitsFor k st (· == .signal n) then s.phaserTrap k st n 5
      else if m.cursor ≠ p.phase then s.waitOn k st (.signal n)
      else ((s.signalPhase k st n).commit k).retire k st 2) s

/-- PHWAIT (R196): rd[31:0] names the phase; the role is required at issue alone. -/
def execPhwait (d a : Reg) (s : State) : Out :=
  onPhaser [d] a (fun k st n s =>
    s.registered k st n fun m =>
      let ph := (s.reg k st d).toNat % 2 ^ 32
      if !m.wait && !s.waitsFor k st (· == .phase n ph none) then s.phaserTrap k st n 5
      else if (s.phaser (clusterOf k) n).done ph then s.endPhaseWait k st n ph none
      else s.waitOn k st (.phase n ph none)) s

/-- PHNEXT (R196): a signaller signals as PHSIG does, and then it waits for that phase; its signal counts for R135 once the phase
completes, since a stop before that undoes it (R190). -/
def execPhnext (d a : Reg) (s : State) : Out :=
  onPhaser [d] a (fun k st n s =>
    s.registered k st n fun m =>
      let p := s.phaser (clusterOf k) n
      let wait (s : State) (ph : Nat) : State :=
        if p.done ph then s.endPhaseWait k st n ph (some d) else s.waitOn k st (.phase n ph (some d))
      match (s.stream k st).wait with
      | some (.phase x ph (some _), _) => if x = n then wait s ph else wait s m.cursor
      | _ =>
        if !m.sig && !s.waitsFor k st (· == .signal n) then wait s m.cursor
        else if m.cursor ≠ p.phase then s.waitOn k st (.signal n)
        else wait (s.signalPhase k st n) m.cursor) s

/-- PHEXP (R198, R416): the count is read with the phaser number, before the object (R188); chunks that waited for
their turn are served. -/
def execPhexp (d a : Reg) (s : State) : Out :=
  onTurn s fun k st =>
    let v := s.reg k st a
    if s.anyPending k st [a, d] then s.waitOn k st .register
    else if v.toNat / 512 ≠ 0 ∨ ¬ (1 ≤ v.toNat ∧ v.toNat ≤ 320) then s.phaserTrap k st v.toNat 1
    else if (s.reg k st d).toNat / 2 ^ 48 ≠ 0 then s.phaserTrap k st v.toNat 8
    else
      match s.phaserArg k v with
      | .error r => s.phaserTrap k st v.toNat r
      | .ok n =>
        s.registered k st n fun _ =>
          let p := s.phaser (clusterOf k) n
          if !p.bytes || (p.ordEn && (s.reg k st d).toNat % p.ordNsrc != 0) then s.phaserTrap k st n 6
          else if p.posted.isSome then s.phaserTrap k st n 7
          else
            let s1 := s.setPhaser (clusterOf k) n { p with posted := some (s.reg k st d).toNat }
            ((s1.commit k).retire k st 2).serveInbound s1.inbound.length

/-- CARVE (R147, R212): every core of the crew needs a stream registered on the phaser, or it raises cause 0x18, reason 1, retired
(R367). -/
def execCarve (a : Reg) (n : BitVec 6) (s : State) : Out :=
  onPhaser [] a (fun k st ph s =>
    let p := s.phaser (clusterOf k) ph
    let c := s.core k
    let crew := match c.point with
      | some q => crewCores q.kind q.base
      | none => [k]
    if crew.all fun j => p.members.any fun m => m.core == j && (m.recNo, m.serial) == c.pointKey then
      let pos := s.pos k st
      let q : CarveReq := ⟨n.toNat, ph, p.phase, st, pos.hdr, pos.off, c.onHandler st, c.pointKey.1, c.pointKey.2⟩
      (s.setCore k { c with carve := (c.carve.filter fun x => !x.due ph p.phase) ++ [q] }).retire k st 2
    else s.retireAndRaise k st 0x18 (word 1)) s

end Sys2Proof.Machine
end

