-- ==== Sys2Proof/Machine/Sync.lean ====
section
/-! DEFINITION. Events, counters, meetings, the point's own registers, the end of a stream's part, the lamp and the
window (R67, R68, R110, R114, R130, R156, R191 to R193, R207 to R210, R213). -/

namespace Sys2Proof.Machine

/-! ### Events (R67, R191) -/

/-- An event of a core. -/
def Core.event (c : Core) (n : Nat) : Bool := c.events.getLsbD n

/-- A core with an event set or cleared. -/
def Core.setEvent (c : Core) (n : Nat) (b : Bool) : Core :=
  let m : BitVec 32 := 1#32 <<< n
  { c with events := if b then c.events ||| m else c.events &&& ~~~ m }

/-- Completes the EWAITKs of a core on an event, in the order of R74. -/
def State.wakeKeepers (s : State) (k n : Nat) : List StreamId → State
  | [] => s
  | st :: r =>
    (match (s.stream k st).wait with
    | some (.event m true len, _) => if m = n then s.retire k st len else s
    | _ => s).wakeKeepers k n r

/-- Completes the first EWAIT of a core on an event, which clears it. -/
def State.wakeWaiter (s : State) (k n : Nat) : List StreamId → State
  | [] => s
  | st :: r =>
    match (s.stream k st).wait with
    | some (.event m false len, _) =>
      if m = n then (s.setCore k ((s.core k).setEvent n false)).retire k st len else s.wakeWaiter k n r
    | _ => s.wakeWaiter k n r

/-- Posts an event: every EWAITK that waits for it completes, then one EWAIT, which clears it (R67). -/
def State.postEvent (s : State) (k n : Nat) : State :=
  ((s.setCore k ((s.core k).setEvent n true)).wakeKeepers k n streamIds).wakeWaiter k n streamIds

/-- EPOST of `len` halfwords. -/
def post (n : BitVec 5) (len : Nat) (s : State) : Out :=
  onTurn s fun k st => (s.retire k st len).postEvent k n.toNat

/-- EWAIT or EWAITK of `len` halfwords. -/
def eventWait (n : BitVec 5) (keep : Bool) (len : Nat) (s : State) : Out :=
  onTurn s fun k st =>
    if (s.core k).event n.toNat then
      (if keep then s else s.setCore k ((s.core k).setEvent n.toNat false)).retire k st len
    else s.waitOn k st (.event n.toNat keep len)

/-- EPOST (R191). -/
def execEpost (n : BitVec 5) (s : State) : Out := post n 2 s

/-- EWAIT (R191). -/
def execEwait (n : BitVec 5) (s : State) : Out := eventWait n false 2 s

/-- EWAITK (R191). -/
def execEwaitk (n : BitVec 5) (s : State) : Out := eventWait n true 2 s

/-- EPOST_16 (R82, R191). -/
def execEpost16 (n : BitVec 5) (s : State) : Out := post n 1 s

/-- EWAIT_16 (R82, R191). -/
def execEwait16 (n : BitVec 5) (s : State) : Out := eventWait n false 1 s

/-! ### Counters (R110, R192) -/

/-- The counters of a stream: loads, stores, copies, engine operations (R110). -/
def Core.counters (c : Core) (st : StreamId) : Nat × Nat × Nat × Nat :=
  let l := (c.stream st).accesses
  let loads := (l.filter fun a => a.kind.isLoad).length
  (loads, l.length - loads, if st = .h then c.copies.length else 0,
    match st with
    | .t => c.mat.length
    | .a => (c.arr.filter fun o => !o.finished).length
    | .c => 0
    | .h => 0)

/-- WAITC (R192). -/
def execWaitc (l s' : BitVec 2) (c : BitVec 3) (e : BitVec 4) (s : State) : Out :=
  onTurn s fun k st =>
    let n := (s.core k).counters st
    if n.1 ≤ l.toNat ∧ n.2.1 ≤ s'.toNat ∧ n.2.2.1 ≤ c.toNat ∧ n.2.2.2 ≤ e.toNat then s.retire k st 2
    else s.waitOn k st .counters

/-! ### Meetings (R156, R193) -/

/-- The bit of a stream in a JOIN mask: bit 3 C to bit 0 H. -/
def inMask (m : BitVec 4) (st : StreamId) : Bool := m.getLsbD (3 - st.num)

/-- The streams of a mask have all arrived at this JOIN and their accesses have completed. -/
def Core.met (c : Core) (mask : BitVec 4) (scope : BitVec 2) : Bool :=
  streamIds.all fun st => !inMask mask st ||
    ((match (c.stream st).wait with
      | some (.join m q, _) => m == mask && q == scope
      | _ => false) && c.quiet st)

/-- Retires the JOINs of the streams of a list that a mask names. -/
def State.retireAll (s : State) (k : Nat) (mask : BitVec 4) : List StreamId → State
  | [] => s
  | st :: r => (if inMask mask st then s.retire k st 2 else s).retireAll k mask r

/-- The meeting of R156, when everything it needs holds: at cluster and device scope the core's writes go home. -/
def State.meet (s : State) (k : Nat) (mask : BitVec 4) (scope : BitVec 2) : State :=
  if mask ≠ 0 ∧ (s.core k).met mask scope then
    (if scope = 0 then s else s.flush k fun _ _ => true).retireAll k mask streamIds
  else s

/-- JOIN (R156, R193): a mask without the issuing stream is illegal. -/
def execJoin (scope : BitVec 2) (mask : BitVec 4) (s : State) : Out :=
  onTurn s fun k st =>
    if !inMask mask st then s.raiseWord k st 0x01 (.join scope mask)
    else (s.waitOn k st (.join mask scope)).meet k mask scope

/-- JOIN_MEET (R156). -/
def execJoinMeet (k : Nat) (mask : BitVec 4) (scope : BitVec 2) (s : State) : Out := .next (if s.clocked k then s.meet k mask scope else s)

/-! ### The end of a stream's part (R114, R208) -/

/-- PEND of `len` halfwords. What it leaves as if by PHDROP is no PHDROP action of R135 (log 78). Of
several tickets that the stream holds it reports the oldest (log 87). -/
def pendOf (i : Instr) (len : Nat) (s : State) : Out :=
  onTurn s fun k st =>
    if (s.core k).onHandler st then s.raiseWord k st 0x04 i
    else
      match (s.stream k st).tickets with
      | (_, t) :: _ => s.raise k st 0x11 (word (t + 2 ^ 32 * 6))
      | [] =>
        let s1 := (s.leavePhasers k st (s.phaserNumbers (clusterOf k))).retire k st len
        s1.setStream k st { s1.stream k st with ended := true }

/-- PEND (R208). -/
def execPend (s : State) : Out := pendOf .pend 2 s

/-- PEND_16 (R82, R208). -/
def execPend16 (s : State) : Out := pendOf .pend16 1 s

/-! ### What a stream can ask about its point (R205, R207, R213) -/

/-- An instruction of R189 that only reads: it waits for its registers, writes rd and retires. -/
def readInto (d : Reg) (f : Nat → StreamId → Word) (s : State) : Out :=
  onTurn s fun k st =>
    if s.anyPending k st [d] then s.waitOn k st .register else (s.setReg k st d (f k st)).retire k st 2

/-- A coordinate of the point a core runs (R207). -/
def Core.coord (c : Core) (n : Nat) : Nat :=
  match c.point with
  | some p => p.coords.getD n 0
  | none => 0

/-- Rank and crew kind of a core (R112). -/
def Core.rankKind (c : Core) : Nat × Nat :=
  match c.point with
  | some p => (p.rank, p.kind)
  | none => (0, 0)

/-- What PSELF writes (R207). -/
def State.selfWord (s : State) (k : Nat) : Word :=
  let r := (s.core k).rankKind
  word (k + 2 ^ 11 * r.1 + 2 ^ 15 * r.2 + 2 ^ 17 * (k % 2) + 2 ^ 18 * clusterOf k)

/-- PCOORD (R207). -/
def execPcoord (d : Reg) (n : BitVec 2) (s : State) : Out :=
  readInto d (fun k _ => word ((s.core k).coord n.toNat)) s

/-- PSELF (R207). -/
def execPself (d : Reg) (s : State) : Out := readInto d (fun k _ => s.selfWord k) s

/-- RLABEL (R213). A target whose fetch fails raises the fetch's cause at the RLABEL (R390; notes/assumptions/17). -/
def execRlabel (o : BitVec 11) (s : State) : Out :=
  onTurn s fun k st =>
    let t := target (s.pos k st).hdr o
    match s.badTarget k t with
    | some _ => s.raise k st 0x03 (malformed 6 (instrWord (.rlabel o)).toNat)
    | none =>
      match s.targetFail k t with
      | some f => s.raise k st f.cause f.info
      | none => (s.setStream k st { s.stream k st with rlabel := t }).retire k st 2

/-! ### The lamp (R130, R209) -/

/-- %lamp of a core (R74). -/
def State.lampWord (s : State) (k : Nat) : Word :=
  let h := s.shaft (shaftOf k)
  word (bit (h.lower || h.cal) + 2 * bit h.upper + 4 * bit (s.holdsLamp k) + 8 * bit (h.reqs.contains k) + 16 * bit h.cool)

/-- %trapinfo of cause 0x12 with reason 6 (R132, R344). -/
def lampInfo (i : Instr) : Word := word ((instrWord i).toNat % 2 ^ 32 + 2 ^ 56 * 6)

/-- LAMPQ (R132, R209). -/
def execLampq (s : State) : Out :=
  onTurn s fun k st =>
    if (s.core k).lampClass = 0 then s.raise k st 0x12 (lampInfo .lampq) else (s.askLamp k).retire k st 2

/-- LAMPREL (R131, R209). -/
def execLamprel (s : State) : Out :=
  onTurn s fun k st => (if s.holdsLamp k then s.loseLamp k else s.withdrawLamp k).retire k st 2

/-- LAMPST (R209). -/
def execLampst (d : Reg) (s : State) : Out := readInto d (fun k _ => s.lampWord k) s

/-! ### The window (R68, R210) -/

/-- WRD (R210). -/
def execWrd (d : Reg) (w : BitVec 3) (s : State) : Out :=
  readInto d (fun k _ => (s.shaft (shaftOf k)).win[w.toNat]'w.isLt) s

/-- WWR (R210). -/
def execWwr (a : Reg) (w : BitVec 3) (s : State) : Out :=
  onTurn s fun k st =>
    if s.anyPending k st [a] then s.waitOn k st .register
    else
      let h := s.shaft (shaftOf k)
      (s.setShaft (shaftOf k) { h with win := h.win.set w.toNat (s.reg k st a) w.isLt }).retire k st 2

end Sys2Proof.Machine
end

