-- ==== Sys2Proof/Machine/Tiles.lean ====
section
/-! DEFINITION. Tiles: elements and scale codes, views, full/empty conditions, claims and the writing of rows
(R27, R34, R58 to R65, R225, R236). -/

namespace Sys2Proof.Machine

/-! ### Elements -/

/-- Row pitch of a format in bytes (R27). -/
def fmtPitch (f : Nat) : Nat :=
  match f with
  | 2 => 128 | 3 => 64 | 4 => 128 | _ => 256

/-- A format whose elements carry block scales (R34). -/
def scaled (f : Nat) : Bool := f == 2 || f == 3

/-- Rows of a tile. -/
def Tile.rows (t : Tile) : Nat := t.rows1 + 1

/-- Columns of a tile. -/
def Tile.cols (t : Tile) : Nat := t.cols1 + 1

/-- Offset of the scale plane (R34). -/
def scalePlane : Nat := 32256

/-- Code of the stored element (i, j) in tile bytes (R34). -/
def codeAt (data : List Host.Cell) (f i j : Nat) : Nat :=
  if f = 3 then
    let b := (tget 0 data (i * 64 + j / 2)).toNat
    if j % 2 = 0 then b % 16 else b / 16
  else leNat (trun 0 data (i * fmtPitch f + j * fmtBytes f) (fmtBytes f))

/-- Code of the stored element (i, j). -/
def Tile.code (t : Tile) (i j : Nat) : Nat := codeAt t.data t.fmt i j

/-- Scale code of block b of row i (R34). -/
def Tile.blockScale (t : Tile) (i b : Nat) : Nat := (tget 0 t.data (scalePlane + 4 * i + b)).toNat

/-- Scale code of the stored element (i, j): 127 for a format without one. -/
def Tile.scale (t : Tile) (i j : Nat) : Nat := if scaled t.fmt then t.blockScale i (j / 32) else 127

/-- The stored element that a view shows at (i, j); none is the zero of view D (R61, R225). -/
def Tile.seen (t : Tile) (v i j : Nat) : Option (Nat × Nat) :=
  match v with
  | 0 => some (i, j)
  | 1 => some (j, i)
  | 2 => some (0, j)
  | _ => if i < t.cols then some (i, i) else none

/-- Code and scale code of the element seen at (i, j). -/
def Tile.elem (t : Tile) (v i j : Nat) : Nat × Nat :=
  match t.seen v i j with
  | some (a, b) => (t.code a b, t.scale a b)
  | none => (0, 127)

/-- to_fp32 of the element seen at (i, j) (R39, R40). -/
def Tile.value (t : Tile) (v i j : Nat) : Val × Status :=
  let e := t.elem v i j
  toFp32 t.fmt e.1 e.2

/-- Rows and columns a view shows (R61). -/
def Tile.shape (t : Tile) (v : Nat) : Nat × Nat := if v = 1 then (t.cols, t.rows) else (t.rows, t.cols)

/-- A source seen through a view fits a destination's shape (R225). -/
def Tile.fits (t : Tile) (v : Nat) (d : Tile) : Bool :=
  match v with
  | 0 => t.rows == d.rows && t.cols == d.cols
  | 1 => t.cols == d.rows && t.rows == d.cols
  | 2 => t.cols == d.cols
  | _ => decide (d.rows ≤ t.rows)

/-- The descriptor as TDRD reads it (R58). -/
def Tile.desc (t : Tile) : Word :=
  word (t.fmt + 8 * t.rows1 + 2 ^ 10 * t.cols1 + 2 ^ 17 * bit t.full + 2 ^ 18 * bit t.ov + 2 ^ 19 * bit t.nv +
    2 ^ 20 * bit t.sat + 2 ^ 21 * bit t.fz)

/-- ORs status bits into a tile's (R38). -/
def Tile.merge (t : Tile) (x : Status) : Tile :=
  { t with ov := t.ov || x.ov, nv := t.nv || x.nv, sat := t.sat || x.sat, fz := t.fz || x.fz }

/-! ### Writing -/

/-- Nibbles packed into bytes from offset `a` on; an odd last one keeps the high half of its byte (R34, R60). -/
def packNibbles (data : List Host.Cell) : Nat → List Nat → List (Nat × Byte)
  | _, [] => []
  | a, [x] => [(a, BitVec.ofNat 8 (x % 16 + (tget 0 data a).toNat / 16 * 16))]
  | a, x :: y :: l => (a, BitVec.ofNat 8 (x % 16 + 16 * (y % 16))) :: packNibbles data (a + 1) l

/-- Tile bytes with the first elements of row i written. -/
def setRowCodes (data : List Host.Cell) (f i : Nat) (codes : List Nat) : List Host.Cell :=
  if f = 3 then tmerge 0 (packNibbles data (i * 64) codes) data
  else tmerge 0 (numbered (i * fmtPitch f) (codes.flatMap (leBytes (fmtBytes f)))) data

/-- Tile bytes with element (i, j) written. -/
def setCode (data : List Host.Cell) (f i j code : Nat) : List Host.Cell :=
  if f = 3 then
    let a := i * 64 + j / 2
    let b := (tget 0 data a).toNat
    tset 0 data a (BitVec.ofNat 8 (if j % 2 = 0 then b / 16 * 16 + code % 16 else b % 16 + 16 * (code % 16)))
  else tmerge 0 (numbered (i * fmtPitch f + j * fmtBytes f) (leBytes (fmtBytes f) code)) data

/-- Tile bytes with the four scale codes of row i written. -/
def setScales (data : List Host.Cell) (i : Nat) (codes : List Nat) : List Host.Cell :=
  tmerge 0 (numbered (scalePlane + 4 * i) (codes.map (BitVec.ofNat 8))) data

/-- Scale code 127 in the four blocks of a row, for a format with scales (R34, R223). -/
def plainScales (data : List Host.Cell) (f i : Nat) : List Host.Cell :=
  if scaled f then setScales data i [127, 127, 127, 127] else data

/-- The first elements of row i written, its scale codes 127 (R223). -/
def Tile.setRow (t : Tile) (i : Nat) (codes : List Nat) : Tile :=
  { t with data := plainScales (setRowCodes t.data t.fmt i codes) t.fmt i }

/-- The first elements of rows written. -/
def Tile.setRows (t : Tile) : List (Nat × List Nat) → Tile
  | [] => t
  | (i, codes) :: l => (t.setRow i codes).setRows l

/-- Element (i, j) written, the scale codes of its row 127 (R223, R238). -/
def Tile.setElem (t : Tile) (i j code : Nat) : Tile :=
  { t with data := plainScales (setCode t.data t.fmt i j code) t.fmt i }

/-! ### Row trailers (R236, R282) -/

/-- One bit of CRC-32C, reflected. -/
def crcBit (c : Nat) : Nat := if c % 2 = 1 then (c / 2) ^^^ 0x82F63B78 else c / 2

/-- CRC-32C over bytes, from a running value. -/
def crcStep (c : Nat) (b : Byte) : Nat :=
  let x := c ^^^ b.toNat
  crcBit (crcBit (crcBit (crcBit (crcBit (crcBit (crcBit (crcBit x)))))))

/-- CRC-32C as iSCSI defines it (R236). -/
def crc32c (l : List Byte) : Nat := (l.foldl crcStep 0xFFFFFFFF) ^^^ 0xFFFFFFFF

/-- The four elements of a row's trailer: its data bytes, its scale codes, its format, columns and index. -/
def trailer (f cols i : Nat) (bytes : List Byte) (scales : List Nat) : List Nat :=
  let sb := if scaled f then scales.map (BitVec.ofNat 8) else []
  [crc32c (bytes ++ sb), leNat sb, f + 8 * (cols - 1) + 2 ^ 10 * i, 0]

/-- Data bytes of a row of a format (R236): an unused high nibble counts as 0. -/
def rowBytes (data : List Host.Cell) (f cols i : Nat) : List Byte :=
  if f = 3 then
    (packNibbles [] 0 ((List.range cols).map fun j => codeAt data 3 i j)).map fun p => p.2
  else trun 0 data (i * fmtPitch f) (cols * fmtBytes f)

/-- The trailer of a row of a tile (R236). -/
def Tile.trailer (t : Tile) (i : Nat) : List Nat :=
  Machine.trailer t.fmt t.cols i (rowBytes t.data t.fmt t.cols i) ((List.range 4).map (t.blockScale i))

/-! ### Full/empty and claims (R62 to R64) -/

/-- What an instruction does with one tile. -/
structure Use where
  tile : Nat
  src : Bool
  /-- a source marked to be consumed -/
  cons : Bool
  dst : Bool
  /-- a destination marked keep full -/
  keep : Bool
  deriving DecidableEq, Repr

/-- A source operand. -/
def Use.read (t : Nat) (mark : Bool) : Use := ⟨t, true, mark, false, false⟩

/-- A destination operand. -/
def Use.write (t : Nat) (keep : Bool) : Use := ⟨t, false, false, true, keep⟩

/-- A destination that is also read. -/
def Use.update (t : Nat) : Use := ⟨t, true, false, true, false⟩

/-- The operands of one tile join (R226). -/
def addUse (u : Use) : List Use → List Use
  | [] => [u]
  | v :: l =>
    if v.tile = u.tile then ⟨v.tile, v.src || u.src, v.cons || u.cons, v.dst || u.dst, v.keep || u.keep⟩ :: l
    else v :: addUse u l

/-- Uses, one for each tile. -/
def mergeUses (l : List Use) : List Use := l.foldl (fun r u => addUse u r) []

/-- The tile may be claimed for a use (R62, R63). -/
def Tile.accepts (t : Tile) (u : Use) : Bool :=
  if u.dst then t.full == (u.src || u.keep) && !t.claimed else t.full && !t.consuming && !t.writing

/-- The tile with the claim of a use. -/
def Tile.claim (t : Tile) (u : Use) : Tile :=
  if u.dst then { t with writing := true }
  else if u.cons then { t with consuming := true }
  else { t with reads := t.reads + 1 }

/-- The tile with the claim of a use taken off. -/
def Tile.unclaim (t : Tile) (u : Use) : Tile :=
  if u.dst then { t with writing := false }
  else if u.cons then { t with consuming := false }
  else { t with reads := t.reads - 1 }

/-- What FULL becomes on release: full for a destination, empty for a consumed source (R63). -/
def Use.fullAfter (u : Use) (old : Bool) : Bool := if u.dst then true else if u.cons then false else old

/-- A release (R63): a TEMPTY or TFULL made while claimed replaces what it would set (R64). -/
def Tile.release (t : Tile) (u : Use) : Tile :=
  let x := t.unclaim u
  { x with full := t.override.getD (u.fullAfter t.full), override := if x.claimed then t.override else none }

/-- TEMPTY or TFULL (R64). -/
def Tile.markFull (t : Tile) (b : Bool) : Tile := if t.claimed then { t with override := some b } else { t with full := b }

/-- A core with a tile replaced. -/
def Core.setTile (c : Core) (n : Nat) (t : Tile) : Core := { c with tiles := tput c.tiles n t }

/-- Every tile may be claimed together (R62). -/
def Core.accepts (c : Core) (us : List Use) : Bool := us.all fun u => (c.tile u.tile).accepts u

/-- Claims every tile in one step (R63). -/
def Core.claim (c : Core) : List Use → Core
  | [] => c
  | u :: us => (c.setTile u.tile ((c.tile u.tile).claim u)).claim us

/-- Releases every tile (R63). -/
def Core.release (c : Core) : List Use → Core
  | [] => c
  | u :: us => (c.setTile u.tile ((c.tile u.tile).release u)).release us

/-- %trapinfo of cause 0x06 (R243). -/
def tileInfo (reason t : Nat) : Word := word (t + 256 * reason)

/-- %trapinfo of cause 0x05 (R367): the tile and the count. -/
def rangeInfo (t count : Nat) : Word := word (t + 256 * count)

/-- The first tile at or above the count (R61, R220). -/
def Core.outOfRange (c : Core) (us : List Use) : Option Nat :=
  (us.find? fun u => decide (c.ntiles ≤ u.tile)).map fun u => u.tile

end Sys2Proof.Machine
end

