-- ==== Sys2Proof/Machine/Vector.lean ====
section
/-! DEFINITION. The vector unit: TT, TU, TC and TD (R220 to R230, R235 to R243). -/

namespace Sys2Proof.Machine

/-! ### Operands -/

/-- Tile number of an operand field (R61). -/
def tileNo (d : BitVec 8) : Nat := TileField.tile d

/-- Tile operands of a vector-unit instruction. -/
structure VecForm where
  dst : Option TileField
  /-- the destination is also a source -/
  reads : Bool
  srcs : List TileField
  deriving DecidableEq, Repr

/-- The tile operands of the instructions that claim tiles (R226 to R241). -/
def vecForm (i : Instr) : VecForm :=
  match i with
  | .tfma d a b | .tsel d a b => ⟨some d, true, [a, b]⟩
  | .tadd d a b | .tsub d a b | .tmul d a b | .tmax d a b | .tmin d a b | .tclt d a b | .tceq d a b
  | .tsrnd d a b => ⟨some d, false, [a, b]⟩
  | .tmov d a | .tneg d a | .tabs d a | .texp2 d a | .tlog2 d a | .trcp d a | .trsq d a | .tsqrt d a | .tsig d a
  | .ttanh d a | .tsilu d a | .tgelu d a | .tscal d a _ | .tadds d a _ | .trsum d a | .trmax d a | .tcsum d a
  | .tcmax d a | .trowx d a _ | .trowi d a _ | .tclamp d a _ | .tcvt d a _ _ _ | .tqnt d a _ | .tdqnt d a _ _
  | .ttrl d a => ⟨some d, false, [a]⟩
  | .tfill d _ | .tiota d | .trand d => ⟨some d, false, []⟩
  | .tset d _ _ => ⟨some d, true, []⟩
  | .tstats d _ | .tget d _ _ => ⟨none, false, [d]⟩
  | _ => ⟨none, false, []⟩

/-- Scalar registers a vector-unit instruction reads at issue, rs or ra first. -/
def vecRegs (i : Instr) : List Reg :=
  match i with
  | .tscal _ _ r | .tadds _ _ r | .trowx _ _ r | .trowi _ _ r | .tfill _ r | .tclamp _ _ r | .tseed r
  | .tstats _ r => [r]
  | .tdesc _ a b _ | .tset _ a b | .tget _ a b => [a, b]
  | .tdrd _ a => [a]
  | _ => []

/-- The tile a TD function without a claim names. -/
def tdTile (i : Instr) : List Nat :=
  match i with
  | .tdesc d _ _ _ | .tempty d | .tfull d | .tdrd d _ => [(tileNo d)]
  | .tempty16 t => [t.toNat]
  | _ => []

/-- What an instruction does with its tiles (R62). -/
def VecForm.uses (f : VecForm) : List Use :=
  (match f.dst with
    | some d => [if f.reads then Use.update d.tile else Use.write d.tile d.mark]
    | none => []) ++ f.srcs.map fun a => Use.read a.tile a.mark

/-- The first failure of a list of checks. -/
def firstFailure (l : List (Bool × Nat × Nat)) : Option (Nat × Nat) := (l.find? fun p => !p.1).map fun p => p.2

/-! ### Descriptor checks (R220, R224, R225): a pass, else the reason and the tile -/

/-- Destination and source are both RAW32 or both numeric, as TMOV accepts them (R227). -/
def moveFormats (td ta : Tile) (d a : Nat) : List (Bool × Nat × Nat) :=
  [(td.fmt != 7 || ta.fmt == 7, 6, d), (ta.fmt != 7 || td.fmt == 7, 3, a)]

/-- Numeric destination and source (R224), TROWX and TROWI among them (R229, R230). -/
def numericFormats (td ta : Tile) (d a : Nat) : List (Bool × Nat × Nat) := [(td.fmt != 7, 6, d), (ta.fmt != 7, 3, a)]

/-- The checks of the instructions with a destination and one source, with the scalar operand (R227 to R236). The row moves test the
row index last (log 89). -/
def oneSourceChecks (i : Instr) (td ta : Tile) (d a : Nat) (v : Nat) (x : Word) : List (Bool × Nat × Nat) :=
  match i with
  | .tmov .. => moveFormats td ta d a ++ [(ta.fits v td, 2, a)]
  | .trsum .. | .trmax .. => numericFormats td ta d a ++ [(td.rows == (ta.shape v).1, 2, a)]
  | .tcsum .. | .tcmax .. => numericFormats td ta d a ++ [(td.cols == (ta.shape v).2, 2, a)]
  | .trowx .. =>
    numericFormats td ta d a ++ [(td.cols == (ta.shape v).2, 2, a), (decide (x.toNat < (ta.shape v).1), 4, a)]
  | .trowi .. => numericFormats td ta d a ++ [(td.cols == (ta.shape v).2, 2, a), (decide (x.toNat < td.rows), 4, d)]
  | .tcvt _ _ _ _ t =>
    [(td.fmt == t.toNat && td.fmt != 7, 6, d), (ta.fmt != 7, 3, a), (ta.fits v td, 2, a)]
  | .tqnt _ _ t => [(td.fmt == 2 + t.toNat, 6, d), (ta.fmt != 7, 3, a), (ta.fits v td, 2, a)]
  | .tdqnt _ _ _ t =>
    [(td.fmt == t.toNat && td.fmt != 7, 6, d), (scaled ta.fmt, 3, a), (ta.fits v td, 2, a)]
  | .ttrl .. => [(td.fmt == 7, 6, d), (td.rows == ta.rows && td.cols == 4, 6, d), (v == 0, 2, a)]
  | _ => numericFormats td ta d a ++ [(ta.fits v td, 2, a)]

/-- The checks of the TT instructions (R226, R239). -/
def twoSourceChecks (i : Instr) (td ta tb : Tile) (d : Nat) (a b : TileField) : List (Bool × Nat × Nat) :=
  (match i with
    | .tsrnd .. =>
      [(td.fmt == 1 || td.fmt == 2 || td.fmt == 3, 6, d), (ta.fmt != 7, 3, a.tile),
        (tb.fmt == 7 || tb.fmt == 5, 3, b.tile)]
    | _ => [(td.fmt != 7, 6, d), (ta.fmt != 7, 3, a.tile), (tb.fmt != 7, 3, b.tile)]) ++
  [(ta.fits a.view td, 2, a.tile), (tb.fits b.view td, 2, b.tile)]

/-- Row and column of TGET and TSET (R238): lane 1 and lane 0 of rb. -/
def elemPos (x : Word) : Nat × Nat := (x.toNat / 2 ^ 16 % 2 ^ 16, x.toNat % 2 ^ 16)

/-- The position lies in the tile's shape. -/
def Tile.has (t : Tile) (p : Nat × Nat) : Bool := decide (p.1 < t.rows ∧ p.2 < t.cols)

/-- The checks an instruction makes when its claim succeeds, in the order of R220. -/
def Core.vecChecks (c : Core) (i : Instr) (x y : Word) : Option (Nat × Nat) :=
  let f := vecForm i
  let d := (f.dst.map TileField.tile).getD 0
  let td := c.tile d
  match i, f.srcs with
  | .tfill .., _ => none
  | .tiota .., _ => none
  | .trand .., _ => firstFailure [(td.fmt == 7 || td.fmt == 5, 6, d)]
  | .tset .., _ => firstFailure [(td.has (elemPos y), 4, d)]
  | .tget .., [a] => firstFailure [((c.tile a.tile).has (elemPos y), 4, a.tile)]
  | .tstats .., [a] => firstFailure [(decide (x.toNat < 1024), 5, a.tile)]
  | _, [a, b] => firstFailure (twoSourceChecks i td (c.tile a.tile) (c.tile b.tile) d a b)
  | _, [a] => firstFailure (oneSourceChecks i td (c.tile a.tile) d a.tile a.view x)
  | _, _ => none

/-- %trapinfo of a failed check (R243): TSTATS adds ra[15:0]. -/
def vecInfo (i : Instr) (f : Nat × Nat) (x : Word) : Word :=
  match i with
  | .tstats .. => word (f.2 + 256 * f.1 + 2 ^ 32 * (x.toNat % 2 ^ 16))
  | _ => tileInfo f.1 f.2

/-! ### What the elements become -/

/-- f of R226, rounded to FP32 by the mode. -/
def ttValue (i : Instr) (mode : Nat) (a b c : Val) : Val × Status :=
  match i with
  | .tadd .. => toF32 mode (valAdd mode a b)
  | .tsub .. => toF32 mode (valAdd mode a b.flip)
  | .tmul .. => toF32 mode (valMul a b)
  | .tfma .. =>
    let p := valMul a b
    let r := valAdd mode p.1 c
    toF32 mode (r.1, p.2.or r.2)
  | .tmax .. => valMax a b
  | .tmin .. => valMin a b
  | .tclt .. => if a.isNan || b.isNan then (.zero, { nv := true }) else (if valLt a b then one else .zero, {})
  | .tceq .. => if a.isNan || b.isNan then (.zero, { nv := true }) else (if valEq a b then one else .zero, {})
  | .tsel .. => (if c.isZero then b else a, {})
  | _ => (a, {})

/-- f of R227 and R230 on one element, with the scalar operand. A NaN bound of TCLAMP raises no status bit: R230 says
only that it leaves the elements unchanged and sets no SAT, and R38 lists NaN operands under NV (log 63). -/
def tuValue (i : Instr) (mode : Nat) (x : Val) (a : Val) : Val × Status :=
  match i with
  | .tneg .. => if a.isNan then invalid else (a.flip, {})
  | .tabs .. => if a.isNan then invalid else (a.abs, {})
  | .texp2 .. => fexp2 a
  | .tlog2 .. => flog2 a
  | .trcp .. => frcp a
  | .trsq .. => frsq a
  | .tsqrt .. => fsqrt a
  | .tsig .. => fsig a
  | .ttanh .. => ftanh a
  | .tsilu .. => fsilu a
  | .tgelu .. => fgelu a
  | .tscal .. => toF32 mode (valMul a x)
  | .tadds .. => toF32 mode (valAdd mode a x)
  | .tclamp .. =>
    if a.isNan then invalid
    else if x.isNan then (a, {})
    else if valLt x.abs a then (x.abs, { sat := true })
    else if valLt a x.abs.flip then (x.abs.flip, { sat := true })
    else (a, {})
  | _ => (a, {})

/-- What an instruction writes: rows of codes from column 0 on, scale codes where computed, and status. -/
structure TileWrite where
  rows : List (Nat × List Nat)
  scales : List (Nat × List Nat)
  st : Status
  deriving DecidableEq, Repr

/-- Rounds a value to a format by a mode, E4M3 saturating, and joins the status of its making. -/
def finish (f mode : Nat) (sat : Bool) (x : Val × Status) : Nat × Status :=
  let r := roundTo f mode sat x.1
  (r.1, x.2.or r.2)

/-- Rows 0 to m - 1 of n elements each, from a function of row and column. -/
def writeAll (m n : Nat) (f : Nat → Nat → Nat × Status) : TileWrite :=
  let rs := (List.range m).map fun i => (i, (List.range n).map (f i))
  ⟨rs.map fun r => (r.1, r.2.map Prod.fst), [], Status.all (rs.flatMap fun r => r.2.map Prod.snd)⟩

/-- One row of codes and status. -/
def writeRow (i n : Nat) (f : Nat → Nat × Status) : TileWrite :=
  let r := (List.range n).map f
  ⟨[(i, r.map Prod.fst)], [], Status.all (r.map Prod.snd)⟩

/-- One element in column 0 of each row. -/
def writeColumn (m : Nat) (f : Nat → Nat × Status) : TileWrite := writeAll m 1 fun i _ => f i

/-- TMOV copies bits (R227): RAW32, or the same unscaled format under view N. -/
def bitCopy (td ta : Tile) (v : Nat) : Bool := td.fmt == ta.fmt && !scaled td.fmt && (v == 0 || td.fmt == 7)

/-- One element of TMOV, TROWX or TROWI (R227, R229): the row moves too copy bits where TMOV does (log 89). -/
def moveElem (td ta : Tile) (v mode i j : Nat) : Nat × Status :=
  if bitCopy td ta v then ((ta.elem v i j).1, {}) else finish td.fmt mode true (ta.value v i j)

/-- A row or column of values summed exactly and rounded once (R228). -/
def sumOf (f mode : Nat) (l : List (Val × Status)) : Nat × Status :=
  let r := finish f mode true (toF32 mode (valSum (l.map Prod.fst)))
  (r.1, (Status.all (l.map Prod.snd)).or r.2)

/-- A row or column's maximum (R228). -/
def maxOf (f mode : Nat) (l : List (Val × Status)) : Nat × Status :=
  let m := (l.map Prod.fst).foldl (fun (a : Val × Status) b => let r := valMax a.1 b; (r.1, a.2.or r.2)) (.inf true, {})
  let r := finish f mode true m
  (r.1, (Status.all (l.map Prod.snd)).or r.2)

/-- x / 2^n, exact. -/
def Val.shift (x : Val) (n : Int) : Val :=
  match x with
  | .fin s m e => .fin s m (e - n)
  | v => v

/-- The scale code of a block (R44). -/
def blockCode (emax : Int) (l : List Val) : Nat :=
  if l.any Val.isInf then 254
  else
    match (l.filter Val.isNonzero).foldl (fun (m : Option Val) x => match m with
        | none => some x.abs
        | some y => if valLt y x.abs then some x.abs else some y) none with
    | some (.fin _ m e) => (max 0 (min 254 ((Nat.log2 m : Int) + e - emax + 127))).toNat
    | _ => 127

/-- One block quantised (R44): its scale code, its element codes and status. -/
def quantise (f : Nat) (l : List (Val × Status)) : Nat × List Nat × Status :=
  let code := blockCode (if f = 2 then 8 else 2) (l.map Prod.fst)
  let r := l.map fun x => finish f 0 true (x.1.shift ((code : Int) - 127), x.2)
  (code, r.map Prod.fst, Status.all (r.map Prod.snd))

/-- One row quantised in its four blocks (R44, R235). -/
def quantiseRow (f cols : Nat) (g : Nat → Val × Status) : List (Nat × List Nat × Status) :=
  (List.range 4).map fun b => quantise f (((List.range 32).map (32 * b + ·)).filter (· < cols) |>.map g)

/-- TQNT (R44). -/
def quantiseTile (td ta : Tile) (v : Nat) : TileWrite :=
  let rs := (List.range td.rows).map fun i => (i, quantiseRow td.fmt td.cols (ta.value v i))
  ⟨rs.map fun r => (r.1, r.2.flatMap fun b => b.2.1), rs.map fun r => (r.1, r.2.map fun b => b.1),
    Status.all (rs.flatMap fun r => r.2.map fun b => b.2.2)⟩

/-- What an instruction with one source writes. TDQNT rounds by its own mode field, as R235 says of every TC
instruction, and not by %tround, as R45 words it (log 63). -/
def oneSourceWrite (i : Instr) (td ta : Tile) (v mode : Nat) (x : Word) : TileWrite :=
  let row (m : Nat) := (List.range (ta.shape v).2).map (ta.value v m)
  let col (n : Nat) := (List.range (ta.shape v).1).map fun m => ta.value v m n
  match i with
  | .tmov .. => writeAll td.rows td.cols (moveElem td ta v mode)
  | .trsum .. => writeColumn td.rows fun m => sumOf td.fmt mode (row m)
  | .trmax .. => writeColumn td.rows fun m => maxOf td.fmt mode (row m)
  | .tcsum .. => writeRow 0 td.cols fun n => sumOf td.fmt mode (col n)
  | .tcmax .. => writeRow 0 td.cols fun n => maxOf td.fmt mode (col n)
  | .trowx .. => writeRow 0 td.cols fun j => moveElem td ta v mode x.toNat j
  | .trowi .. => writeRow x.toNat td.cols fun j => moveElem td ta v mode 0 j
  | .tcvt _ _ r s _ => writeAll td.rows td.cols fun m n => finish td.fmt r.toNat (s == 1) (ta.value v m n)
  | .tqnt .. => quantiseTile td ta v
  | .tdqnt _ _ r _ =>
    writeAll td.rows td.cols fun m n =>
      let e := ta.elem v m n
      finish td.fmt r.toNat true (scaledVal ta.fmt e.1 e.2, {})
  | .ttrl .. => ⟨(List.range ta.rows).map fun m => (m, ta.trailer m), [], {}⟩
  | _ =>
    writeAll td.rows td.cols fun m n =>
      let a := ta.value v m n
      let r := tuValue i mode (fp32 (x.setWidth 32)) a.1
      finish td.fmt mode true (r.1, a.2.or r.2)

/-- What a TT instruction writes (R226, R239). -/
def twoSourceWrite (o : VecOp) (td ta tb : Tile) (va vb : Nat) : TileWrite :=
  let mode := o.tround.toNat
  match o.instr with
  | .tsrnd .. =>
    writeAll td.rows td.cols fun m n =>
      let a := ta.value va m n
      let r := stochastic td.fmt a.1 (tb.elem vb m n).1 o.tsrb
      (r.1, a.2.or r.2)
  | _ =>
    let old (m n : Nat) : Val × Status := if (vecForm o.instr).reads then td.value 0 m n else (.zero, {})
    let quiet : Bool := match o.instr with
      | .tsel .. => true
      | _ => false
    writeAll td.rows td.cols fun m n =>
      let a := ta.value va m n
      let b := tb.value vb m n
      let c := old m n
      let r := ttValue o.instr mode a.1 b.1 c.1
      let st := (a.2.or b.2).or c.2
      finish td.fmt mode true (r.1, ({ st with nv := st.nv && !quiet } : Status).or r.2)

/-- TFILL (R230). -/
def fillWrite (td : Tile) (mode : Nat) (x : Word) : TileWrite :=
  let r : Nat × Status := if td.fmt = 7 then (x.toNat % 2 ^ 32, {}) else roundTo td.fmt mode true (fp32 (x.setWidth 32))
  writeAll td.rows td.cols fun _ _ => r

/-- TIOTA (R230). -/
def iotaWrite (td : Tile) (mode : Nat) : TileWrite :=
  writeAll td.rows td.cols fun i j =>
    let n := i * td.cols + j
    if td.fmt = 7 then (n, {}) else roundTo td.fmt mode true (.fin false n 0)

/-- Outputs of the generator, two elements to a step, for n elements (R54). -/
def randomCodes (g : Word) : Nat → List Nat × Word
  | 0 => ([], g)
  | 1 => ([(xorshift g).toNat % 2 ^ 32], xorshift g)
  | n + 2 =>
    let h := xorshift g
    let r := randomCodes h n
    (h.toNat % 2 ^ 32 :: h.toNat / 2 ^ 32 :: r.1, r.2)

/-- Rows of n codes each from a list in row-major order. -/
def chunkRows (n : Nat) : Nat → List Nat → List (List Nat)
  | 0, _ => []
  | m + 1, l => l.take n :: chunkRows n m (l.drop n)

/-- What a claimed instruction writes into its destination. -/
def Core.vecWrite (c : Core) (o : VecOp) (td : Tile) : TileWrite :=
  match o.instr, (vecForm o.instr).srcs with
  | .tfill .., _ => fillWrite td o.tround.toNat o.s1
  | .tiota .., _ => iotaWrite td o.tround.toNat
  | .trand .., _ =>
    ⟨(List.range td.rows).zip (chunkRows td.cols td.rows (randomCodes c.gen (td.rows * td.cols)).1), [], {}⟩
  | _, [a, b] => twoSourceWrite o td (c.tile a.tile) (c.tile b.tile) a.view b.view
  | _, [a] => oneSourceWrite o.instr td (c.tile a.tile) a.view o.tround.toNat o.s1
  | _, _ => ⟨[], [], {}⟩

/-- Computed scale codes written (R44). -/
def Tile.setAllScales (t : Tile) : List (Nat × List Nat) → Tile
  | [] => t
  | (i, codes) :: l => ({ t with data := setScales t.data i codes } : Tile).setAllScales l

/-- A tile with what an instruction writes (R222). -/
def Tile.write (t : Tile) (w : TileWrite) : Tile := ((t.setRows w.rows).setAllScales w.scales).merge w.st

/-- TRAND leaves the generator after its last step (R240). -/
def Core.stepGen (c : Core) (o : VecOp) (td : Tile) : Core :=
  match o.instr with
  | .trand .. => { c with gen := (randomCodes c.gen (td.rows * td.cols)).2 }
  | _ => c

/-- The tile under a new descriptor (R59). -/
def Tile.describe (t : Tile) (f rows cols : Nat) : Tile :=
  { t with fmt := f, rows1 := rows - 1, cols1 := cols - 1, ov := false, nv := false, sat := false, fz := false }

/-- A TDESC takes effect on its tile, which is still there. -/
def Core.describe (c : Core) (o : VecOp) : Core :=
  match o.instr with
  | .tdesc d _ _ f => if tileNo d < c.ntiles then c.setTile (tileNo d) ((c.tile (tileNo d)).describe f.toNat o.s1.toNat o.s2.toNat) else c
  | _ => c

/-- An instruction completes: its destination is written and its claims are released (R222), or a tile has its new descriptor. -/
def Core.vecDone (c0 : Core) (o : VecOp) : Core :=
  let f := vecForm o.instr
  let c := c0.describe o
  let c1 : Core := match f.dst with
    | some d => (c.setTile d.tile ((c.tile d.tile).write (c.vecWrite o (c.tile d.tile)))).stepGen o (c.tile d.tile)
    | none => c
  { c1.release (mergeUses f.uses) with vec := none }

/-- VECTOR_COMPLETE (R222). A TDESC waits until its tile is unclaimed (R220). -/
def execVectorComplete (k : Nat) (s : State) : Out :=
  match if s.clocked k && !(s.core k).vecWaits then (s.core k).vec else none with
  | some o => .next ((s.setCore k ((s.core k).vecDone o)).enterTrap k)
  | none => .next s

/-! ### Issue -/

/-- The instruction completes where it claims: TSTATS, TGET and TSET (R238, R241). -/
def Core.immediate (c : Core) (i : Instr) (x y : Word) : Option Core :=
  let us := mergeUses (vecForm i).uses
  let c1 := (c.claim us).release us
  match i with
  | .tset d _ _ => some (c1.setTile (tileNo d) ((c1.tile (tileNo d)).setElem (elemPos y).1 (elemPos y).2 (x.toNat % 2 ^ fmtBits (c.tile (tileNo d)).fmt)))
  | .tget .. => some c1
  | .tstats .. => some c1
  | _ => none

/-- The scalar result or the table entry of an instruction that completes where it claims. -/
def State.immediateResult (s : State) (k : Nat) (i : Instr) (x y : Word) : State :=
  match i with
  | .tget d a _ =>
    let t := (s.core k).tile (tileNo d)
    s.setReg k .t a (word (t.code (elemPos y).1 (elemPos y).2))
  | .tstats d _ =>
    let t := (s.core k).tile (tileNo d)
    (s.stat k x.toNat fun e => { e with ov := e.ov || t.ov, nv := e.nv || t.nv, sat := e.sat || t.sat, fz := e.fz || t.fz,
                                        merges := min (2 ^ 32 - 1) (e.merges + 1) }).commit k
  | _ => s

/-- An issued vector-unit instruction tries to claim (R62, R63, R220): it waits, or fails a check, or claims and the
stream goes on. -/
def State.vectorTry (s : State) (k : Nat) (o : VecOp) : State :=
  let c := s.core k
  let us := mergeUses (vecForm o.instr).uses
  if c.accepts us = false then s.waitOn k .t (.claim o)
  else
    match c.vecChecks o.instr o.s1 o.s2 with
    | some f => s.raise k .t 0x06 (vecInfo o.instr f o.s1)
    | none =>
      match c.immediate o.instr o.s1 o.s2 with
      | some c1 => ((s.setCore k c1).immediateResult k o.instr o.s1 o.s2).retire k .t 2
      | none => (s.setCore k { c.claim us with vec := some o }).retire k .t 2

/-- The descriptor a TDESC asks for lies within R59. -/
def descOk (rows cols : Word) (f : Nat) : Bool :=
  decide (1 ≤ rows.toNat ∧ rows.toNat ≤ 128 ∧ 1 ≤ cols.toNat ∧ cols.toNat ≤ 128 ∧ cols.toNat * fmtBits f ≤ 2048)

/-- The TD functions that claim no tile, and TEMPTY_16 (R237, R240). TDESC checks its shape and stands in the vector unit: what follows in
the stream does not wait for its effect, unless it needs that unit (R221, R308). -/
def State.tdPlain (s : State) (k : Nat) (o : VecOp) : State :=
  let c := s.core k
  match o.instr with
  | .tdesc d _ _ f =>
    let t := c.tile (tileNo d)
    if t.claimed then s.waitOn k .t (.claim o)
    else if descOk o.s1 o.s2 f.toNat = false then s.raise k .t 0x06 (tileInfo 1 (tileNo d))
    else (s.setCore k { c with vec := some o }).retire k .t 2
  | .tempty d => (s.setCore k (c.setTile (tileNo d) ((c.tile (tileNo d)).markFull false))).retire k .t 2
  | .tfull d => (s.setCore k (c.setTile (tileNo d) ((c.tile (tileNo d)).markFull true))).retire k .t 2
  | .tempty16 t => (s.setCore k (c.setTile t.toNat ((c.tile t.toNat).markFull false))).retire k .t 1
  | .tdrd d a => (s.setReg k .t a (c.tile (tileNo d)).desc).retire k .t 2
  | .tseed _ => (s.setCore k { c with gen := seeded o.s1 }).retire k .t 2
  | _ => s

/-- An issued vector-unit instruction goes on (R220, R221): it waits while the unit executes an earlier instruction,
TEMPTY, TFULL and TDRD among them (log 64), and then claims. -/
def State.vectorGo (s : State) (k : Nat) (o : VecOp) : State :=
  if (s.core k).vec.isSome then s.waitOn k .t (.claim o)
  else if (vecForm o.instr).uses.isEmpty then s.tdPlain k o
  else s.vectorTry k o

/-- What a vector-unit instruction reads at issue: its scalar operands, %tround and %tsrb (R223, R227, R239). -/
def State.vecOperands (s : State) (k : Nat) (i : Instr) : VecOp :=
  ⟨i, s.reg k .t ((vecRegs i).headD 0), s.reg k .t ((vecRegs i).getD 1 0), (s.core k).tround, (s.core k).tsrb⟩

/-- A vector-unit instruction issues (R220, R221): its registers, the range of its tiles against the count in force,
its operands, and then the unit and the claim. -/
def State.vectorFirst (s : State) (k : Nat) (i : Instr) : State :=
  let c := s.core k
  if s.anyPending k .t (vecRegs i) then s.waitOn k .t .register
  else
    match c.outOfRange ((vecForm i).uses ++ (tdTile i).map fun t => Use.read t false) with
    | some t => s.raise k .t 0x05 (rangeInfo t c.ntiles)
    | none => s.vectorGo k (s.vecOperands k i)

/-- The instruction that the T stream has issued and that waits ahead of its claim. -/
def Stream.issued (x : Stream) : Option VecOp :=
  match x.wait with
  | some (.claim o, _) => some o
  | _ => none

/-- A vector-unit instruction of the T stream: one that has issued and waits goes on with what it read at issue. -/
def State.vectorIssue (s : State) (k : Nat) (i : Instr) : State :=
  match (s.stream k .t).issued with
  | some o => if o.instr = i then s.vectorGo k o else s.vectorFirst k i
  | none => s.vectorFirst k i

/-- A vector-unit instruction of the T stream. -/
def vectorOp (i : Instr) (s : State) : Out := onTurn s fun k st => s.ownedBy k st .t i (s.vectorIssue k i)

/-- VECTOR_CLAIM (R63): the instruction that waits at the T stream tries again. -/
def execVectorClaim (k : Nat) (s : State) : Out :=
  match (s.stream k .t).issued with
  | some o => .next (if s.runnable k .t then s.vectorGo k o else s)
  | none => .next s

/-- TADD (R226). -/
def execTadd (d a b : BitVec 8) (s : State) : Out := vectorOp (.tadd d a b) s

/-- TSUB (R226). -/
def execTsub (d a b : BitVec 8) (s : State) : Out := vectorOp (.tsub d a b) s

/-- TMUL (R226). -/
def execTmul (d a b : BitVec 8) (s : State) : Out := vectorOp (.tmul d a b) s

/-- TFMA (R226). -/
def execTfma (d a b : BitVec 8) (s : State) : Out := vectorOp (.tfma d a b) s

/-- TMAX (R226). -/
def execTmax (d a b : BitVec 8) (s : State) : Out := vectorOp (.tmax d a b) s

/-- TMIN (R226). -/
def execTmin (d a b : BitVec 8) (s : State) : Out := vectorOp (.tmin d a b) s

/-- TCLT (R226). -/
def execTclt (d a b : BitVec 8) (s : State) : Out := vectorOp (.tclt d a b) s

/-- TCEQ (R226). -/
def execTceq (d a b : BitVec 8) (s : State) : Out := vectorOp (.tceq d a b) s

/-- TSEL (R226). -/
def execTsel (d a b : BitVec 8) (s : State) : Out := vectorOp (.tsel d a b) s

/-- TSRND (R239). -/
def execTsrnd (d a b : BitVec 8) (s : State) : Out := vectorOp (.tsrnd d a b) s

/-- TMOV (R227). -/
def execTmov (d a : BitVec 8) (s : State) : Out := vectorOp (.tmov d a) s

/-- TNEG (R227). -/
def execTneg (d a : BitVec 8) (s : State) : Out := vectorOp (.tneg d a) s

/-- TABS (R227). -/
def execTabs (d a : BitVec 8) (s : State) : Out := vectorOp (.tabs d a) s

/-- TEXP2 (R41). -/
def execTexp2 (d a : BitVec 8) (s : State) : Out := vectorOp (.texp2 d a) s

/-- TLOG2 (R41). -/
def execTlog2 (d a : BitVec 8) (s : State) : Out := vectorOp (.tlog2 d a) s

/-- TRCP (R41). -/
def execTrcp (d a : BitVec 8) (s : State) : Out := vectorOp (.trcp d a) s

/-- TRSQ (R41). -/
def execTrsq (d a : BitVec 8) (s : State) : Out := vectorOp (.trsq d a) s

/-- TSQRT (R41). -/
def execTsqrt (d a : BitVec 8) (s : State) : Out := vectorOp (.tsqrt d a) s

/-- TSIG (R41). -/
def execTsig (d a : BitVec 8) (s : State) : Out := vectorOp (.tsig d a) s

/-- TTANH (R41). -/
def execTtanh (d a : BitVec 8) (s : State) : Out := vectorOp (.ttanh d a) s

/-- TSILU (R41). -/
def execTsilu (d a : BitVec 8) (s : State) : Out := vectorOp (.tsilu d a) s

/-- TGELU (R41). -/
def execTgelu (d a : BitVec 8) (s : State) : Out := vectorOp (.tgelu d a) s

/-- TRSUM (R228). -/
def execTrsum (d a : BitVec 8) (s : State) : Out := vectorOp (.trsum d a) s

/-- TRMAX (R228). -/
def execTrmax (d a : BitVec 8) (s : State) : Out := vectorOp (.trmax d a) s

/-- TCSUM (R228). -/
def execTcsum (d a : BitVec 8) (s : State) : Out := vectorOp (.tcsum d a) s

/-- TCMAX (R228). -/
def execTcmax (d a : BitVec 8) (s : State) : Out := vectorOp (.tcmax d a) s

/-- TTRL (R236). -/
def execTtrl (d a : BitVec 8) (s : State) : Out := vectorOp (.ttrl d a) s

/-- TSCAL (R227). -/
def execTscal (d a : BitVec 8) (r : Reg) (s : State) : Out := vectorOp (.tscal d a r) s

/-- TADDS (R227). -/
def execTadds (d a : BitVec 8) (r : Reg) (s : State) : Out := vectorOp (.tadds d a r) s

/-- TROWX (R229). -/
def execTrowx (d a : BitVec 8) (r : Reg) (s : State) : Out := vectorOp (.trowx d a r) s

/-- TROWI (R229). -/
def execTrowi (d a : BitVec 8) (r : Reg) (s : State) : Out := vectorOp (.trowi d a r) s

/-- TCLAMP (R230). -/
def execTclamp (d a : BitVec 8) (r : Reg) (s : State) : Out := vectorOp (.tclamp d a r) s

/-- TFILL (R230). -/
def execTfill (d : BitVec 8) (r : Reg) (s : State) : Out := vectorOp (.tfill d r) s

/-- TIOTA (R230). -/
def execTiota (d : BitVec 8) (s : State) : Out := vectorOp (.tiota d) s

/-- TCVT (R235). -/
def execTcvt (d a : BitVec 8) (r : BitVec 2) (x : BitVec 1) (t : BitVec 3) (s : State) : Out := vectorOp (.tcvt d a r x t) s

/-- TQNT (R44, R235). -/
def execTqnt (d a : BitVec 8) (t : BitVec 1) (s : State) : Out := vectorOp (.tqnt d a t) s

/-- TDQNT (R45, R235). -/
def execTdqnt (d a : BitVec 8) (r : BitVec 2) (t : BitVec 3) (s : State) : Out := vectorOp (.tdqnt d a r t) s

/-- TDESC (R59, R237). -/
def execTdesc (d : BitVec 8) (a b : Reg) (f : BitVec 3) (s : State) : Out := vectorOp (.tdesc d a b f) s

/-- TEMPTY (R64, R237). -/
def execTempty (d : BitVec 8) (s : State) : Out := vectorOp (.tempty d) s

/-- TFULL (R64, R237). -/
def execTfull (d : BitVec 8) (s : State) : Out := vectorOp (.tfull d) s

/-- TEMPTY_16 (R82, R237). -/
def execTempty16 (t : BitVec 5) (s : State) : Out := vectorOp (.tempty16 t) s

/-- TDRD (R58, R237). -/
def execTdrd (d : BitVec 8) (a : Reg) (s : State) : Out := vectorOp (.tdrd d a) s

/-- TRAND (R54, R240). -/
def execTrand (d : BitVec 8) (s : State) : Out := vectorOp (.trand d) s

/-- TSEED (R53, R240). -/
def execTseed (a : Reg) (s : State) : Out := vectorOp (.tseed a) s

/-- TSTATS (R241). -/
def execTstats (d : BitVec 8) (a : Reg) (s : State) : Out := vectorOp (.tstats d a) s

/-- TGET (R238). -/
def execTget (d : BitVec 8) (a b : Reg) (s : State) : Out := vectorOp (.tget d a b) s

/-- TSET (R238). -/
def execTset (d : BitVec 8) (a b : Reg) (s : State) : Out := vectorOp (.tset d a b) s

end Sys2Proof.Machine
end

