-- ==== Sys2Proof/Machine/Matrix.lean ====
section
/-! DEFINITION. The matrix unit: TMMA, TMMAZ, TDRAIN, TDRAINM and TACLR (R46 to R49, R220, R221, R231 to R234). -/

namespace Sys2Proof.Machine

/-! ### Accumulators -/

/-- Accumulator m of a core. -/
def Core.acc (c : Core) (m : BitVec 1) : Accum := if m = 0 then c.m0 else c.m1

/-- A core with accumulator m replaced. -/
def Core.setAcc (c : Core) (m : BitVec 1) (a : Accum) : Core := if m = 0 then { c with m0 := a } else { c with m1 := a }

/-- Element (i, j) of an accumulator as a value. -/
def Accum.value (a : Accum) (i j : Nat) : Val := floatVal 8 (tget 0 a.elems (128 * i + j)).toNat

/-- ORs status into an accumulator's: OV, NV and SAT. -/
def Accum.merge (a : Accum) (x : Status) : Accum := { a with ov := a.ov || x.ov, nv := a.nv || x.nv, sat := a.sat || x.sat }

/-- Status of an accumulator. -/
def Accum.status (a : Accum) : Status := ⟨a.ov, a.nv, a.sat, false⟩

/-! ### TMMA (R46, R47, R231) -/

/-- The exact value of the element seen at (i, j), block scale included (R34). -/
def Tile.exact (t : Tile) (v i j : Nat) : Val :=
  let e := t.elem v i j
  scaledVal t.fmt e.1 e.2

/-- The terms of one block of one output: k from 16 blk to hi - 1 (R46). -/
def blockTerms (ta tb : Tile) (va vb i j lo hi : Nat) : List (Val × Status) :=
  (List.range (hi - lo)).map fun n => valMul (ta.exact va i (lo + n)) (tb.exact vb (lo + n) j)

/-- One output after one block (R46, R47). -/
def blockElem (a : Accum) (first : Bool) (terms : List (Val × Status)) (i j : Nat) : Nat × Status :=
  let vs := terms.map Prod.fst
  let r := valSum (if first then vs else a.value i j :: vs)
  let x := roundTo 8 0 true r.1
  (x.1, ((Status.all (terms.map Prod.snd)).or r.2).or x.2)

/-- An accumulator after one block of 16 k values for all outputs. -/
def Accum.block (a : Accum) (ta tb : Tile) (va vb : Nat) (first : Bool) (blk : Nat) : Accum :=
  let m := (ta.shape va).1
  let n := (tb.shape vb).2
  let k := (ta.shape va).2
  let cells : List (Nat × Nat × Status) := (List.range m).flatMap fun i => (List.range n).map fun j =>
    (128 * i + j, blockElem a first (blockTerms ta tb va vb i j (16 * blk) (min (16 * blk + 16) k)) i j)
  ({ a with elems := tmerge 0 (cells.map fun (c : Nat × Nat × Status) => (c.1, BitVec.ofNat 64 c.2.1)) a.elems }).merge
    (let s := Status.all (cells.map fun (c : Nat × Nat × Status) => c.2.2); { s with sat := false, fz := false })

/-- Blocks of a product: ceil(K / 16). -/
def blocksOf (ta : Tile) (va : Nat) : Nat := ((ta.shape va).2 + 15) / 16

/-- A tile format TMMA reads (R231). -/
def productFmt (f : Nat) : Bool := f == 1 || f == 2 || f == 3 || f == 4

/-- The checks of TMMA when it starts (R231). -/
def productChecks (ta tb : Tile) (a b : TileField) : Option (Nat × Nat) :=
  firstFailure
    [(productFmt ta.fmt, 3, a.tile), (productFmt tb.fmt, 3, b.tile), (decide (a.view < 2), 2, a.tile),
      (decide (b.view < 2), 2, b.tile), ((ta.shape a.view).2 == (tb.shape b.view).1, 2, b.tile)]

/-- Charge of one MAC in femtojoules (R409). -/
def macCharge (fa fb : Nat) : Nat := if fa = 1 ∨ fb = 1 then 300 else if fa = 3 ∧ fb = 3 then 75 else 150

/-! ### Drains (R48, R232, R233) -/

/-- Tile format of a drain's format code (R97). -/
def drainFmt (f : Nat) : Nat :=
  match f with
  | 0 => 0 | 1 => 1 | 2 => 2 | _ => 5

/-- The bound of the clamp flag: %tclamp rounded toward zero to the format; none for a NaN (R48, R74). -/
def clampBound (f : Nat) (tclamp : BitVec 32) : Option Val :=
  match fp32 tclamp with
  | .nan _ => none
  | v => some (codeVal f (roundTo f 1 true v.abs).1)

/-- A rounded code limited to the bound, SAT where that changes it (R48). -/
def clampCode (f : Nat) (bound : Option Val) (r : Nat × Status) : Nat × Status :=
  match bound with
  | none => r
  | some c =>
    let v := codeVal f r.1
    if valLt c v.abs then ((roundTo f 0 true (if v.neg then c.flip else c)).1, { r.2 with sat := true }) else r

/-- One element drained: an exact sum, one rounding, the limit (R48). An exact zero sum is +0 unless every term is −0,
in every mode, as R46 and R228 have it for their sums; R48 states no sign (log 63). -/
def drainElem (f mode : Nat) (bound : Option Val) (terms : List Val) : Nat × Status :=
  let r := valSum terms
  let x := roundTo f mode true r.1
  clampCode f bound (x.1, r.2.or x.2)

/-- What TDRAIN writes (R232). -/
def drainWrite (a : Accum) (td : Tile) (addOld : Bool) (mode : Nat) (bound : Option Val) : TileWrite :=
  let w := writeAll td.rows td.cols fun i j =>
    drainElem td.fmt mode bound (if addOld then [a.value i j, td.exact 0 i j] else [a.value i j])
  { w with st := w.st.or a.status }

/-! ### Issue (R220, R221) -/

/-- Tiles a TM instruction names. -/
def matUses (i : Instr) : List Use :=
  match i with
  | .tmma _ a b | .tmmaz _ a b => mergeUses [Use.read (tileNo a) (TileField.mark a), Use.read (tileNo b) (TileField.mark b)]
  | .tdrain _ d x _ _ _ => [if x = 1 then Use.update (tileNo d) else Use.write (tileNo d) (TileField.mark d)]
  | _ => []

/-- The layout of a TDRAINM and its checks, which are made at issue alone (R233): steps 1 and 2 of R176, then the format. -/
def State.drainLayout (s : State) (k : Nat) (l f : Nat) : Except Nat Layout :=
  match s.layout k l false true true with
  | .error r => .error r
  | .ok y =>
    if y.space = 3 ∨ 4 < y.space then .error 8
    else if y.efmt ≠ f then .error 3
    else .ok y

/-- An instruction enters the matrix unit with %tclamp as it stands at issue (log 89). -/
def State.enqueue (s : State) (k : Nat) (i : Instr) (coords : Word) : State :=
  let c := s.core k
  let p := s.pos k .t
  let m : MatOp := ⟨i, coords, c.tclamp, false, 0, false, p.hdr, p.off, s.order, s.order⟩
  ((s.setCore k { c with mat := c.mat ++ [m] }).tick).retire k .t 2

/-- Issue of a TM instruction at the T stream. -/
def State.matIssue (s : State) (k : Nat) (i : Instr) : State :=
  let c := s.core k
  match c.outOfRange (matUses i) with
  | some t => s.raise k .t 0x05 (rangeInfo t c.ntiles)
  | none =>
    if isHeavy i && c.lampClass == 0 then s.raise k .t 0x12 (lampInfo i)
    else s.enqueue k i 0

/-- A TM instruction of the T stream: a fifth stalls (R221). -/
def matrixOp (i : Instr) (s : State) : Out :=
  onTurn s fun k st => s.ownedBy k st .t i (if 4 ≤ (s.core k).mat.length then s.waitOn k .t .unit else s.matIssue k i)

/-- TMMA (R231). -/
def execTmma (m : BitVec 1) (a b : BitVec 8) (s : State) : Out := matrixOp (.tmma m a b) s

/-- TMMAZ (R231). -/
def execTmmaz (m : BitVec 1) (a b : BitVec 8) (s : State) : Out := matrixOp (.tmmaz m a b) s

/-- TDRAIN (R232). -/
def execTdrain (m : BitVec 1) (d : BitVec 8) (x c : BitVec 1) (r f : BitVec 2) (s : State) : Out :=
  matrixOp (.tdrain m d x c r f) s

/-- TACLR (R234). -/
def execTaclr (m : BitVec 1) (s : State) : Out := matrixOp (.taclr m) s

/-- TDRAINM (R233): its coordinates are read at issue. -/
def execTdrainm (m : BitVec 1) (l : BitVec 8) (c : Reg) (x f : BitVec 1) (s : State) : Out :=
  onTurn s fun k st =>
    s.ownedBy k st .t (.tdrainm m l c x f)
      (if s.anyPending k .t [c] then s.waitOn k .t .register
      else if 4 ≤ (s.core k).mat.length then s.waitOn k .t .unit
      else
        match s.drainLayout k l.toNat f.toNat with
        | .error r => s.raise k .t 0x07 (layoutInfo l.toNat r)
        | .ok _ => s.enqueue k (.tdrainm m l c x f) (s.reg k .t c))

/-! ### Start -/

/-- Replaces the instruction at the head of the matrix unit. -/
def Core.setHead (c : Core) (m : MatOp) : Core := { c with mat := m :: c.mat.drop 1 }

/-- The head leaves the matrix unit; the next one begins to wait (R63). -/
def State.popMat (s : State) (k : Nat) : State :=
  let c := s.core k
  (s.setCore k { c with mat := (c.mat.drop 1).mapIdx fun n m => if n = 0 then { m with since := s.order } else m }).tick

/-- A heavy instruction of a stream may issue under %pace and PACEMIN (R133, R408). -/
def State.paceReady (s : State) (k : Nat) (st : StreamId) : Bool :=
  let c := s.core k
  let low := (s.cluster (clusterOf k)).pacemin
  match (c.stream st).lastHeavy with
  | none => true
  | some n => decide (n + max (c.stream st).pace.toNat (if (s.shaft (shaftOf k)).throt then 2 * low else low) ≤ c.ticks)

/-- An element of a TDRAINM: its row and column, address and home. -/
structure DrainCell where
  i : Nat
  j : Nat
  addr : Nat
  locs : List Loc
  deriving DecidableEq, Repr

/-- The elements of one row of a TDRAINM inside the extents, and how many are not; the first refused element stops
it (R73, R176, R233). -/
def State.drainRow (s : State) (k issued : Nat) (l : Layout) (coords : Word) (i : Nat) :
    List Nat → State × Except MemFail (List DrainCell × Nat)
  | [] => (s, .ok ([], 0))
  | j :: js =>
    let idx := l.index coords [j, i]
    if l.inBounds idx = false then
      match s.drainRow k issued l coords i js with
      | (s1, .ok (cs, n)) => (s1, .ok (cs, n + 1))
      | r => r
    else
      match s.locate k l.space (l.address idx) (fmtBytes l.efmt) ⟨false, true, false, false, some issued⟩ with
      | (s1, .error f) => (s1, .error f)
      | (s1, .ok ls) =>
        match s1.drainRow k issued l coords i js with
        | (s2, .ok (cs, n)) => (s2, .ok (⟨i, j, l.address idx, ls⟩ :: cs, n))
        | r => r

/-- The rows of a TDRAINM: the elements of each inside the extents, and how many are not. -/
def State.drainRows (s : State) (k issued : Nat) (l : Layout) (coords : Word) (cols : Nat) :
    List Nat → State × Except MemFail (List (List DrainCell × Nat))
  | [] => (s, .ok [])
  | i :: is =>
    match s.drainRow k issued l coords i (List.range cols) with
    | (s1, .error f) => (s1, .error f)
    | (s1, .ok r) =>
      match s1.drainRows k issued l coords cols is with
      | (s2, .ok rs) => (s2, .ok (r :: rs))
      | x => x

/-- One element of a row added at its home (R49, R233). -/
def State.drainCell (s : State) (k f : Nat) (a : Accum) (bound : Option Val) (c : DrainCell) : State × Status :=
  let old := leNat (c.locs.map (s.homeGet (s.keyOf k)))
  let r := drainElem f 0 bound [a.value c.i c.j, codeVal f old]
  (((s.homeSetAll (s.keyOf k) (c.locs.zip (leBytes c.locs.length r.1))).chargeLocs k c.locs).commitLoc k c.locs, r.2)

/-- The elements of one row, in one indivisible update. -/
def State.drainCells (s : State) (k f : Nat) (a : Accum) (bound : Option Val) : List DrainCell → State × Status
  | [] => (s, {})
  | c :: cs =>
    let r := s.drainCell k f a bound c
    let q := r.1.drainCells k f a bound cs
    (q.1, r.2.or q.2)

/-- What the rows of a TDRAINM did: the state after them, the status raised, the out-of-bounds elements of the rows
performed, and the address of the uncorrectable error that ended them. -/
structure Drained where
  next : State
  status : Status
  dropped : Nat
  bad : Option Nat

/-- The rows in ascending order; the core's own copies of a row go home before it is updated there (R161). An
uncorrectable error in a row ends them before it is performed (R179, R233). -/
def State.drainAll (s : State) (k f : Nat) (a : Accum) (bound : Option Val) : List (List DrainCell × Nat) → Drained
  | [] => ⟨s, {}, 0, none⟩
  | r :: rs =>
    let s1 := s.syncSectors k (r.1.flatMap fun c => c.locs)
    match r.1.find? fun c => c.locs.any s1.locBad with
    | some c => ⟨s1, {}, 0, some c.addr⟩
    | none =>
      let x := s1.drainCells k f a bound r.1
      let q := x.1.drainAll k f a bound rs
      ⟨q.next, x.2.or q.status, r.2 + q.dropped, q.bad⟩

/-- TDRAINM at the head of the unit: steps 5 to 7 of R176, its rows, and its status (R233). -/
def State.startDrainm (s : State) (k : Nat) (m : MatOp) (acc : BitVec 1) (l : Nat) (clamp : Bool) (f : Nat) : State :=
  let y := s.rawLayout k l
  let a := (s.core k).acc acc
  match s.drainRows k m.issued y m.coords a.cols (List.range a.rows) with
  | (s1, .error e) => s1.raiseAt k .t e.cause e.info m.hdr m.off
  | (s1, .ok rows) =>
    let x := s1.drainAll k f a (if clamp then clampBound f m.tclamp else none) rows
    let st := x.status.or a.status
    let s2 := (x.next.drops k y.tid x.dropped).statBits k y.tid st.ov st.nv st.sat
    let s3 := s2.setCore k ((s2.core k).setHead { m with started := true, ready := true })
    match x.bad with
    | some addr => (s3.popMat k).raiseAt k .t 0x13 (word (addr % 2 ^ 57)) m.hdr m.off
    | none => s3

/-- TMMA claims its tiles with the lamp held: its checks, and the shape of the accumulator (R220, R231). -/
def State.beginProduct (s : State) (k : Nat) (m : MatOp) (acc : BitVec 1) (a b : TileField) : State :=
  let c := s.core k
  match productChecks (c.tile a.tile) (c.tile b.tile) a b with
  | some f => (s.popMat k).raiseAt k .t 0x06 (tileInfo f.1 f.2) m.hdr m.off
  | none =>
    let shape : Accum := { c.acc acc with rows := ((c.tile a.tile).shape a.view).1, cols := ((c.tile b.tile).shape b.view).2 }
    let c1 := ((c.claim (matUses m.instr)).setAcc acc shape).setHead { m with started := true }
    s.setCore k (c1.setStream .t { c1.strT with lastHeavy := some c.ticks })

/-- Time passes at a core: one tick of the count that %pace is measured in (log 5). -/
def State.passTick (s : State) (k : Nat) : State := s.setCore k { s.core k with ticks := (s.core k).ticks + 1 }

/-- TMMA at the head of the unit (R220, R231): its tiles, %pace and the lamp, which it asks for; a FREE lamp is granted at
once (R130). While %pace or PACEMIN holds it, time passes, whether or not a stream of the core moves (R133, R408). -/
def State.startProduct (s : State) (k : Nat) (m : MatOp) (acc : BitVec 1) (a b : TileField) : State :=
  if (s.core k).accepts (matUses m.instr) = false then s
  else if s.paceReady k .t = false then s.passTick k
  else if s.holdsLamp k then s.beginProduct k m acc a b
  else if (s.askLamp k).holdsLamp k then (s.askLamp k).beginProduct k m acc a b
  else s.askLamp k

/-- TDRAIN at the head of the unit: its claim and its check (R220, R232). -/
def State.startDrain (s : State) (k : Nat) (m : MatOp) (d f : Nat) : State :=
  let c := s.core k
  if c.accepts (matUses m.instr) = false then s
  else if (c.tile d).fmt ≠ drainFmt f then (s.popMat k).raiseAt k .t 0x06 (tileInfo 6 d) m.hdr m.off
  else s.setCore k ((c.claim (matUses m.instr)).setHead { m with started := true, ready := true })

/-- MATRIX_START (R220): the head of the unit starts, where nothing stops the core. -/
def execMatrixStart (k : Nat) (s : State) : Out :=
  match (s.core k).mat with
  | [] => .next s
  | m :: _ =>
    if m.started || !s.unitsRun k then .next s
    else
      .next (match m.instr with
        | .tmma acc a b => s.startProduct k m acc a b
        | .tmmaz acc a b => s.startProduct k m acc a b
        | .tdrain _ d _ _ _ f => s.startDrain k m (tileNo d) f.toNat
        | .tdrainm acc l _ x f =>
          if (s.core k).accessesBefore .t m.issued then s else s.startDrainm k m acc l.toNat (x == 1) f.toNat
        | _ => s.setCore k ((s.core k).setHead { m with started := true, ready := true }))

/-! ### Blocks and completion -/

/-- One block of a product, and its charge (R231, R409). -/
def State.productBlock (s : State) (k : Nat) (m : MatOp) (acc : BitVec 1) (a b : TileField) (fresh : Bool) : State :=
  let c := s.core k
  let ta := c.tile a.tile
  let tb := c.tile b.tile
  let x := (c.acc acc).block ta tb a.view b.view (fresh && m.done == 0) m.done
  let n := m.done + 1
  let width := min (16 * n) (ta.shape a.view).2 - 16 * m.done
  (s.setCore k ((c.setAcc acc x).setHead { m with done := n, ready := decide (blocksOf ta a.view ≤ n) })).charge k
    (macCharge ta.fmt tb.fmt * ((ta.shape a.view).1 * (tb.shape b.view).2 * width))

/-- MATRIX_BLOCK (R231): one block of the product at work, under the lamp. Without the lamp the core asks for it. -/
def execMatrixBlock (k : Nat) (s : State) : Out :=
  match (s.core k).mat with
  | [] => .next s
  | m :: _ =>
    if !m.started || m.ready || !s.unitsRun k then .next s
    else if s.holdsLamp k = false then .next (s.askLamp k)
    else
      .next (match m.instr with
        | .tmma acc a b => s.productBlock k m acc a b false
        | .tmmaz acc a b => s.productBlock k m acc a b true
        | _ => s)

/-- The effect of a TM instruction on the core as it completes: the drained tile, the cleared accumulator (R232,
R234). -/
def Core.matEffect (c : Core) (m : MatOp) : Core :=
  match m.instr with
  | .tdrain acc d x cl r f =>
    let td := c.tile (tileNo d)
    let bound := if cl = 1 then clampBound (drainFmt f.toNat) m.tclamp else none
    c.setTile (tileNo d) (td.write (drainWrite (c.acc acc) td (x == 1) r.toNat bound))
  | .taclr acc => c.setAcc acc Accum.reset
  | _ => c

/-- MATRIX_COMPLETE (R221): the head of the unit has its effect and releases its claims. -/
def execMatrixComplete (k : Nat) (s : State) : Out :=
  match (s.core k).mat with
  | [] => .next s
  | m :: _ =>
    if !m.ready || !s.completes k then .next s
    else .next (((s.setCore k (((s.core k).matEffect m).release (matUses m.instr))).popMat k).enterTrap k)

end Sys2Proof.Machine
end

