-- ==== Sys2Proof/Machine/Panel.lean ====
section
/-! DEFINITION. Panels: codes, reads, pulses, masks and programming (R50 to R52, R55, R244 to R255, R263).

The digital edges are exact on every device (R254). The physics between them follows the nominal model of R1 where
State.nominal is set. Elsewhere a panel is a real one: what R253 bounds is a free value within its bound (log 7). -/

namespace Sys2Proof.Machine

/-! ### Exact rounding of rationals -/

/-- Rounds to the nearest integer, ties to even (R36). -/
def rneRat (x : Rat) : Int :=
  let d : Int := x.den
  let f := x.num / d
  let r := x.num - f * d
  if 2 * r < d then f else if d < 2 * r then f + 1 else if f % 2 = 0 then f else f + 1

/-- A rational rounded by RNE to a format, E4M3 saturating. -/
def ratTo (f : Nat) (x : Rat) : Nat × Status := roundQ f 0 true (decide (x < 0)) x.num.natAbs x.den

/-- The magnitude of a rational. -/
def ratAbs (x : Rat) : Rat := if x < 0 then -x else x

/-- A rational limited to a range. -/
def ratClamp (lo hi x : Rat) : Rat := if x < lo then lo else if hi < x then hi else x

/-- An FP32 parameter as a rational (R70). -/
def fpRat (w : Word) : Rat := (fp32 (w.setWidth 32)).rat

/-- A BF16 code as a rational. -/
def bfRat (b : BitVec 16) : Rat := (floatVal 1 b.toNat).rat

/-! ### The physics: nominal, or within the bounds of R253 (R249, log 7) -/

/-- Which model a panel follows, the number of the first free value of the unit at work, and the number of the panel,
whose cells have properties of their own. -/
structure Physics where
  nominal : Bool
  base : Nat
  panel : Nat
  deriving DecidableEq, Repr

/-- Free values one unit may use at most. -/
def unitSpan : Nat := 4294967296

/-- What free values a second write-verify loop of one unit takes: others than the first (R253). -/
def Physics.later (q : Physics) : Physics := { q with base := q.base + 2 ^ 24 }

/-- D0 of the fast or the slow array (R249). -/
def stepSize (fast : Bool) : Rat := if fast then 1 / 1024 else 1 / 4096

/-- A weight within [-1, 1] (R244). -/
def weightClamp (x : Rat) : Rat := ratClamp (-1) 1 x

/-- Symmetry point of a cell (R253): within 0.25 of 0 for a fast cell. -/
def Physics.symmetry (q : Physics) (fast : Bool) (cell : Nat) : Rat :=
  if fast then ratClamp (-1 / 4) (1 / 4) (Config.cellSymmetry q.panel cell) else 0

/-- A weight of a real cell after one pulse (R253): the mean step D0 α of the cell, varied, with the soft bounds of
R249 moved to the cell's own saturation bounds and symmetry point. -/
def Physics.realPulse (q : Physics) (n : Nat) (fast down : Bool) (cell : Nat) (w : Rat) : Rat :=
  let step := stepSize fast * ratClamp (3 / 4) (5 / 4) (Config.cellStep q.panel cell) * Config.pulseFactor (q.base + n)
  let s := q.symmetry fast cell
  let hi := ratClamp (9 / 10) (11 / 10) (Config.cellHigh q.panel cell)
  let lo := ratClamp (-11 / 10) (-9 / 10) (Config.cellLow q.panel cell)
  weightClamp (if down then w - step * ((w - lo) / (s - lo)) else w + step * ((hi - w) / (hi - s)))

/-- A weight after one pulse (R249); n names the pulse within its unit. -/
def Physics.pulse (q : Physics) (n : Nat) (fast down : Bool) (cell : Nat) (w : Rat) : Rat :=
  if q.nominal then (if down then w - stepSize fast * (1 + w) else w + stepSize fast * (1 - w))
  else q.realPulse n fast down cell w

/-- What the ADC makes of x / q before it rounds, on a line whose calibrated gain is g: on a real panel with its noise, with an
offset of at most 0.5, and with a response that g makes up for to within 0.5 % (R253). -/
def Physics.sample (q : Physics) (n : Nat) (g x : Rat) : Rat :=
  if q.nominal then x
  else x / g * (1 + ratClamp (-1 / 200) (1 / 200) (Config.adcGain (q.base + n))) +
    ratClamp (-1 / 2) (1 / 2) (Config.adcOffset (q.base + n)) + Config.adcNoise (q.base + n)

/-- One ADC code of a line of gain g: clamp(rne(x / q), -511, 511), and whether it clipped (R51). -/
def Physics.adc (q : Physics) (n : Nat) (g x full : Rat) : Int × Bool :=
  let a := rneRat (q.sample n g (x / full))
  (max (-511) (min 511 a), decide (a < -511 ∨ 511 < a))

/-- What a DAC code drives: on a real panel it errs by at most 0.25 of a step (R253); n names the read. -/
def Physics.drive (q : Physics) (n line : Nat) (d : Int) : Rat :=
  if q.nominal then d else d + ratClamp (-1 / 4) (1 / 4) (Config.dacError (q.base + n) line)

/-- Sum of ns ADC codes and how many clipped. -/
def Physics.adcSum (q : Physics) (n : Nat) (g x full : Rat) : Nat → Int × Nat
  | 0 => (0, 0)
  | ns + 1 =>
    let a := q.adc (n + ns) g x full
    let r := q.adcSum n g x full ns
    (a.1 + r.1, bit a.2 + r.2)

/-- Pulses of the bursts of one write-verify loop: a free count, at most 16 for each iteration (R254, R263). -/
def Physics.bursts (q : Physics) (n maxit : Nat) : Nat := Config.burstPulses (q.base + n) % (16 * maxit + 1)

/-! ### Cells -/

/-- Number of cell (i, j). -/
def cellNo (i j : Nat) : Nat := 512 * i + j

/-- Fast weight of cell (i, j). -/
def Panel.fastAt (p : Panel) (i j : Nat) : Rat := tget 0 p.fast (cellNo i j)

/-- Slow weight of cell (i, j). -/
def Panel.slowAt (p : Panel) (i j : Nat) : Rat := tget 0 p.slow (cellNo i j)

/-- Column gain g_j. -/
def Panel.gain (p : Panel) (j : Nat) : Rat := bfRat (tget 0x3F80 p.gcol j)

/-- Row gain h_i. -/
def Panel.rowGain (p : Panel) (i : Nat) : Rat := bfRat (tget 0x3F80 p.hrow i)

/-- Symmetry point of column c. -/
def Panel.symmetry (p : Panel) (c : Nat) : Rat := bfRat (tget 0 p.sp c)

/-- The weight scale s_w. -/
def Panel.scale (p : Panel) : Rat := (fp32 p.sw).rat

/-- Live rows of a mask code, within the group (R251). -/
def liveRows (code : Nat) : List Nat :=
  match code with
  | 0 => [0, 1] | 1 => [0, 2] | 2 => [0, 3] | 3 => [1, 2] | 4 => [1, 3] | _ => [2, 3]

/-- Mask code of the group of row i in column j. -/
def Panel.maskCode (p : Panel) (g j : Nat) : Nat := tget 0 p.mask (128 * j + g)

/-- The cell is live (R251). -/
def Panel.live (p : Panel) (i j : Nat) : Bool := !p.maskBound || (liveRows (p.maskCode (i / 4) j)).contains (i % 4)

/-- Counts pulses against cells in rising order. -/
def Panel.wearBy (p : Panel) (l : List (Nat × Nat)) : Panel :=
  { p with wear := tmerge 0 (l.map fun c => (c.1, tget 0 p.wear c.1 + c.2)) p.wear }

/-- Cells of a panel. -/
def panelCells : Nat := 262144

/-- What pulses do to the cells of their rows and columns that they do not reach: on a real panel, at most 1 % of D0 for each
pulse (R253). The list gives the pulsed cells, each with its pulses. -/
def Physics.disturbed (q : Physics) (n : Nat) (fast : Bool) (cells : List (Nat × Nat)) (t : Tbl Rat) : Tbl Rat :=
  if q.nominal || cells.isEmpty then t
  else
    let near := ((List.range panelCells).filter fun c => !cells.any fun d => d.1 == c).filterMap fun c =>
      let m : Nat := ((cells.filter fun d => d.1 / 512 == c / 512 || d.1 % 512 == c % 512).map Prod.snd).foldl (· + ·) 0
      let bound : Rat := stepSize fast * m / 100
      if m = 0 then none else some (c, weightClamp (tget 0 t c + ratClamp (-bound) bound (Config.disturb (q.base + n) c)))
    tmerge 0 near t

/-- The drift of a panel since its last operation: fast cells toward their symmetry points by at most 2 % an hour, slow
cells by at most 0.1 % an hour (R253). Under the nominal model no time passes (R254). -/
def Panel.drift (p : Panel) (q : Physics) : Panel :=
  if q.nominal then p
  else
    let h := max 0 (Config.hours q.base)
    let f (c : Nat) : Rat := ratClamp 0 (min 1 (h / 50)) (Config.fastDrift q.base c)
    let g (c : Nat) : Rat := ratClamp (-(h / 1000)) (h / 1000) (Config.slowDrift q.base c)
    let cells := List.range panelCells
    { p with
      fast := tmerge 0 (cells.map fun c => (c, weightClamp (tget 0 p.fast c + f c * (q.symmetry true c - tget 0 p.fast c)))) p.fast,
      slow := tmerge 0 (cells.map fun c => (c, weightClamp (tget 0 p.slow c * (1 + g c)))) p.slow }

/-- A panel whose power was removed (R245, R253): its fast weights hold no defined value, and the slow weights of a real one
drift by at most 0.1 % an hour and 0.001 a year. -/
def Panel.unpowered (p : Panel) (q : Physics) : Panel :=
  let y := max 0 (Config.years q.base)
  let cells := List.range panelCells
  let slow (c : Nat) : Rat :=
    weightClamp (tget 0 p.slow c * (1 + ratClamp (-(8766 * y / 1000)) (8766 * y / 1000) (Config.slowDrift q.base c)) +
      ratClamp (-(y / 1000)) (y / 1000) (Config.idleDrift q.base c))
  { p with
    fast := tmerge 0 (cells.map fun c => (c, weightClamp (Config.powerUpWeight (q.base + c)))) p.fast,
    slow := if q.nominal then p.slow else tmerge 0 (cells.map fun c => (c, slow c)) p.slow }

/-- One pulse to each of the cells of one slot, in rising order: cell number, whether down (R248, R249). -/
def Panel.pulseCells (p : Panel) (q : Physics) (n : Nat) (fast : Bool) (l : List (Nat × Bool)) : Panel :=
  let upd (t : Tbl Rat) : Tbl Rat :=
    q.disturbed n fast (l.map fun c => (c.1, 1)) (tmerge 0 (l.map fun c => (c.1, q.pulse (n + c.1) fast c.2 c.1 (tget 0 t c.1))) t)
  (if fast then { p with fast := upd p.fast } else { p with slow := upd p.slow }).wearBy (l.map fun (c : Nat × Bool) => (c.1, 1))

/-- Sets cells of one array in rising order. -/
def Panel.setCells (p : Panel) (fast : Bool) (l : List (Nat × Rat)) : Panel :=
  if fast then { p with fast := tmerge 0 l p.fast } else { p with slow := tmerge 0 l p.slow }

/-- An array of a panel with what some pulses do to the cells beside theirs (R253). -/
def Panel.disturbArray (p : Panel) (q : Physics) (n : Nat) (fast : Bool) (cells : List (Nat × Nat)) : Panel :=
  if fast then { p with fast := q.disturbed n true cells p.fast } else { p with slow := q.disturbed n false cells p.slow }

/-- The panel leaves service for a spare (R421): its retirement is requested, or its wear has reached 10^10. -/
def Panel.leaving (p : Panel) : Bool := !p.retired && (p.retiring || p.wear.any fun c => decide (10 ^ 10 ≤ c.2))

/-! ### Generators (R53, R55) -/

/-- The 512 bytes of a slot from a generator, and the generator after its 64 steps (R55). -/
def slotBytes (g : Word) : Nat → List Nat × Word
  | 0 => ([], g)
  | n + 1 =>
    let h := xorshift g
    let r := slotBytes h n
    ((List.range 8).map (fun b => h.toNat / 256 ^ b % 256) ++ r.1, r.2)

/-- A slot's row bytes and column bytes, and the panel after the draw. -/
def Panel.drawSlot (p : Panel) : List Nat × List Nat × Panel :=
  let r := slotBytes p.rowGen 64
  let c := slotBytes p.colGen 64
  (r.1, c.1, { p with rowGen := r.2, colGen := c.2 })

/-! ### Codes (R50, R52) -/

/-- Largest magnitude of the finite values among some (R50). -/
def maxAbs (l : List Val) : Rat := (l.filter Val.isNonzero).foldl (fun m v => if m < ratAbs v.rat then ratAbs v.rat else m) 0

/-- DAC code of an element and whether a finite one was clamped (R50). -/
def dacCode (sx : Rat) (v : Val) : Int × Bool :=
  match v with
  | .nan _ => (0, false)
  | .inf s => (if s then -127 else 127, false)
  | .fin .. =>
    let d := rneRat (v.rat / sx)
    (max (-127) (min 127 d), decide (d < -127 ∨ 127 < d))

/-- Pulse-probability code (R52). -/
def pulseCode (c : Rat) (v : Val) : Nat :=
  match v with
  | .nan _ => 0
  | .inf _ => 256
  | .fin .. => min 256 (rneRat (ratAbs v.rat * c * 256)).toNat

/-! ### Sums (R246) -/

/-- Sum over one array of the drive times the weight, for output e: columns of AFWD, rows of ABWD. -/
def tableDot (p : Panel) (t : Tbl Rat) (transposed masked : Bool) (d : Nat → Rat) (e : Nat) : Rat :=
  (t.filter fun c => (if transposed then c.1 / 512 else c.1 % 512) == e && (!masked || p.live (c.1 / 512) (c.1 % 512))).foldl
    (fun s c => s + d (if transposed then c.1 % 512 else c.1 / 512) * c.2) 0

/-- Sum of d_k W(k, e) or d_k W(e, k), W = live (C + gamma A) (R246). -/
def Panel.dot (p : Panel) (transposed : Bool) (gamma : Rat) (d : Nat → Rat) (e : Nat) : Rat :=
  tableDot p p.slow transposed true d e + gamma * tableDot p p.fast transposed true d e

/-- Mean of ns ADC codes of one cell driven alone with code 127, in weight units (R262). -/
def estimate (q : Physics) (n ns : Nat) (w full gain : Rat) : Rat :=
  ((q.adcSum n gain (q.drive n 0 127 * w) full ns).1 : Rat) / ns * full * gain / 127

/-! ### Write-verify loops (R263) -/

/-- A cell to program: its number, its target clamped to [-1, 1], and the target before the clamp, none where no
finite one is wanted: a NaN or an infinity, which the clamp moves without end. -/
structure Goal where
  cell : Nat
  target : Rat
  want : Option Rat
  deriving DecidableEq, Repr

/-- The goal of a cell for a target of some scale: a NaN becomes 0 (R263). -/
def goalOf (cell : Nat) (x : Val) (scale : Rat) : Goal :=
  match x with
  | .nan _ => ⟨cell, 0, none⟩
  | .inf s => ⟨cell, if s then -1 else 1, none⟩
  | .fin .. => ⟨cell, weightClamp (x.rat / scale), some (x.rat / scale)⟩

/-- The parameters of a loop: ap.tol, ap.maxit, ap.ns and the full scale of its reads. -/
structure LoopPars where
  tol : Rat
  maxit : Nat
  ns : Nat
  full : Rat
  deriving DecidableEq, Repr

/-- The bound of a cell that the device programs for itself: ap.tol at its reset value (R70, R253, log 7). -/
def deviceTol : Rat := fpRat (apReset.toList.getD 21 0)

/-- Where the device itself leaves a cell that it drives to a target (R245, R421): nominally at the target, on a real panel within
the bound of programming (R253). -/
def Physics.driven (q : Physics) (n : Nat) (target : Rat) : Rat :=
  if q.nominal then weightClamp target
  else weightClamp (ratClamp (target - deviceTol) (target + deviceTol) (Config.realProgram (q.base + n) target))

/-- Where a loop leaves a cell, and whether it is a miss (R253, R263). Nominally it is exactly at its clamped target. On a
real panel the last verify read decides, against the target before the clamp (log 90), and a cell that is no miss lies within ap.tol of
it. -/
def Physics.program (q : Physics) (l : LoopPars) (gain : Rat) (g : Goal) : Rat × Bool :=
  if q.nominal then
    (g.target, match g.want with
      | none => true
      | some t => decide (l.tol < ratAbs (g.target - t)))
  else
    let w := weightClamp (Config.realProgram (q.base + g.cell) g.target)
    match g.want with
    | none => (w, true)
    | some t =>
      if l.tol < ratAbs (estimate q (unitSpan / 4 + 16 * g.cell) l.ns w l.full gain - t) then (w, true)
      else (weightClamp (ratClamp (t - l.tol) (t + l.tol) w), false)

/-- Programs cells in rising order; the panel and the misses (R263). The bursts disturb the other cells of their rows and columns
as any pulse does (R253). `gain` is the gain of the verify read of a cell:
g_j for a loop along a row, h_i for one along a column. -/
def Panel.program (p : Panel) (q : Physics) (fast : Bool) (l : LoopPars) (gain : Nat → Rat) (gs : List Goal) : Panel × Nat :=
  let done := gs.map fun g => (g.cell, q.program l (gain g.cell) g)
  let pulses := gs.map fun g => (g.cell, q.bursts (unitSpan / 2 + g.cell) l.maxit)
  (((p.setCells fast (done.map fun x => (x.1, x.2.1))).disturbArray q (unitSpan / 2) fast pulses).wearBy pulses,
    (done.filter fun x => x.2.2).length)

/-- The gain of a transposed read of a cell: h_i of its row (R262). -/
def Panel.cellRowGain (p : Panel) (cell : Nat) : Rat := p.rowGain (cell / 512)

/-- The gain of a forward read of a cell: g_j of its column (R266). -/
def Panel.cellGain (p : Panel) (cell : Nat) : Rat := p.gain (cell % 512)

/-- Every fast cell of a column driven to its symmetry point (R264). -/
def Panel.zeroColumn (p : Panel) (q : Physics) (l : LoopPars) (c : Nat) : Panel × Nat :=
  p.program q true l p.cellRowGain
    ((List.range 512).map fun i => goalOf (cellNo i c) (floatVal 1 (tget 0 p.sp c).toNat) 1)

end Sys2Proof.Machine
end

