-- ==== Sys2Proof/Machine/Array.lean ====
section
/-! DEFINITION. The array engine: issue, stop units and completion of the array instructions, and ASET (R70, R256 to
R277). -/

namespace Sys2Proof.Machine

/-! ### Operands -/

/-- Panel field, and whether it names a register (R100). -/
def arrPanel (i : Instr) : BitVec 5 × Bool :=
  match i with
  | .afwd p _ _ _ _ x | .abwd p _ _ _ _ x | .aupd p _ _ _ _ x => (p, x == 1)
  | .axfr p x | .argrw p x | .aseed p x | .azero p x => (p, x == 1)
  | .acal p _ _ x | .aasy p _ _ x | .aprog p _ _ x | .amask p _ x => (p, x == 1)
  | .astat p _ _ x => (p, x == 1)
  | _ => (0, false)

/-- First tile of the X quad. -/
def arrX (i : Instr) : Option Nat :=
  match i with
  | .afwd _ x _ _ _ _ | .abwd _ x _ _ _ _ | .aupd _ x _ _ _ _ | .aprog _ x _ _ => some (4 * x.toNat)
  | _ => none

/-- First tile of the Y quad. -/
def arrY (i : Instr) : Option Nat :=
  match i with
  | .afwd _ _ _ y _ _ | .abwd _ _ _ y _ _ | .aupd _ _ _ y _ _ | .acal _ y _ _ | .aasy _ y _ _ => some (4 * y.toNat)
  | _ => none

/-- The four tiles of a quad (R259). -/
def quad (b : Nat) : List Nat := [b, b + 1, b + 2, b + 3]

/-- What an array instruction does with its tiles (R256, R259). -/
def arrUses (i : Instr) : List Use :=
  mergeUses (match i with
    | .afwd _ x k y j _ | .abwd _ x k y j _ =>
      (quad (4 * x.toNat)).map (Use.read · (k == 1)) ++ (quad (4 * y.toNat)).map (Use.write · (j == 1))
    | .aupd _ x k y j _ =>
      (quad (4 * x.toNat)).map (Use.read · (k == 1)) ++ (quad (4 * y.toNat)).map (Use.read · (j == 1))
    | .acal _ y j _ | .aasy _ y j _ => (quad (4 * y.toNat)).map (Use.write · (j == 1))
    | .aprog _ x k _ => (quad (4 * x.toNat)).map (Use.read · (k == 1))
    | .astat _ y j _ => [Use.write y.toNat (j == 1)]
    | _ => [])

/-- The instruction pulses its panel (R135). -/
def pulses (i : Instr) : Bool :=
  match i with
  | .aupd .. | .axfr .. | .acal .. | .aprog .. | .argrw .. | .azero .. => true
  | _ => false

/-- A parameter register as a number. -/
def par (v : Vector Word 24) (n : Nat) : Nat := (v.toList.getD n 0).toNat

/-- A parameter register as an FP32 value. -/
def parFp (v : Vector Word 24) (n : Nat) : Rat := fpRat (v.toList.getD n 0)

/-- Row i is frozen (R70). -/
def frozenRow (v : Vector Word 24) (i : Nat) : Bool := decide (par v 16 % 2 ^ 32 ≤ i ∧ i < par v 17 % 2 ^ 32)

/-- Column j is frozen (R70). -/
def frozenCol (v : Vector Word 24) (j : Nat) : Bool := decide (par v 16 / 2 ^ 32 ≤ j ∧ j < par v 17 / 2 ^ 32)

/-- A bit of ap.flags. -/
def parFlag (v : Vector Word 24) (n : Nat) : Bool := par v 15 / 2 ^ n % 2 == 1

/-- Rows ap.frow to ap.frow + ap.nrow - 1. -/
def rowsOf (v : Vector Word 24) : List Nat := (List.range (par v 14)).map (par v 13 + ·)

/-- Columns ap.c0 to ap.c0 + ap.nc - 1. -/
def colsOf (v : Vector Word 24) : List Nat := (List.range (par v 9)).map (par v 8 + ·)

/-! ### Issue (R256 to R259) -/

/-- %trapinfo of causes 0x0D and 0x0E (R276, R277). -/
def arrInfo (n reason : Nat) : Word := word (n + 256 * reason)

/-- Panel p of a core. -/
def Core.panel (c : Core) (p : Nat) : Panel := tget Panel.reset c.panels p

/-- A core with panel p replaced. -/
def Core.setPanel (c : Core) (p : Nat) (x : Panel) : Core := { c with panels := tput c.panels p x }

/-- Bytes of a mask plane (R251). -/
def planeSize : Nat := 32768

/-- The joint limits of R258: the parameter a failure names. -/
def jointLimit (i : Instr) (v : Vector Word 24) : Option Nat :=
  let row : Bool := match i with
    | .afwd .. | .abwd .. | .aupd .. | .axfr .. | .aasy .. | .aprog .. => true
    | _ => false
  let col : Bool := match i with
    | .afwd .. | .abwd .. | .aupd .. | .acal .. | .azero .. | .aprog .. | .argrw .. => true
    | _ => false
  let flags : Bool := match i with
    | .aprog .. => parFlag v 4
    | _ => false
  if row && decide (512 < par v 13 + par v 14) then some 13
  else if col && decide (512 < par v 8 + par v 9) then some 8
  else if flags then some 15
  else none

/-- The layout checks of AMASK at step 7 of R256 (R268). -/
def State.planeCheck (s : State) (k l : Nat) : Except (Nat × Word) Nat :=
  match s.layout k l true false false with
  | .error r => .error (0x07, layoutInfo l r)
  | .ok y =>
    if y.space ≠ 0 ∨ y.base % 64 ≠ 0 then .error (0x07, layoutInfo l 8)
    else if (s.core k).scratchSize < y.base + planeSize then .error (0x0B, (memFail 0x0B y.base 0 0).info)
    else .ok y.base

/-- Steps 2 to 9 of R256: the cause and %trapinfo of the first failure. -/
def State.arrChecks (s : State) (k p : Nat) (i : Instr) : Option (Nat × Word) :=
  let c := s.core k
  let x := c.panel p
  let set : BitVec 32 := match c.point with
    | some q => q.panels
    | none => 0
  let regrow : Bool := match i with
    | .argrw .. => !x.maskBound || decide (c.scratchSize < x.maskHome + planeSize)
    | _ => false
  let plane : Option (Nat × Word) := match i with
    | .amask _ l _ => (match s.planeCheck k l.toNat with | .error e => some e | .ok _ => none)
    | _ => none
  if set.getLsbD p = false then some (0x0D, arrInfo p 4)
  else if x.owner ≠ some c.part then some (0x0D, arrInfo p 3)
  else if x.retired then some (0x0D, arrInfo p 2)
  else if !x.calibrated || x.leaving then some (0x0D, arrInfo p 1)
  else if regrow then some (0x0D, arrInfo p 6)
  else
    match c.outOfRange (arrUses i), plane, jointLimit i c.ap with
    | some t, _, _ => some (0x05, rangeInfo t c.ntiles)
    | none, some e, _ => some e
    | none, none, some n => some (0x0E, arrInfo n 3)
    | none, none, none => if isHeavy i && c.lampClass == 0 then some (0x12, lampInfo i) else none

/-- Format checks of one quad (R259): its tiles agree, and the format is accepted. -/
def Core.quadFormats (c : Core) (b reason : Nat) (ok : Nat → Bool) : List (Bool × Nat × Nat) :=
  let f := (c.tile b).fmt
  [((c.tile (b + 1)).fmt == f, reason, b + 1), ((c.tile (b + 2)).fmt == f, reason, b + 2),
    ((c.tile (b + 3)).fmt == f, reason, b + 3), (ok f, reason, b)]

/-- Shape checks of one quad (R259). -/
def Core.quadShapes (c : Core) (b rows : Nat) : List (Bool × Nat × Nat) :=
  (quad b).map fun t => ((c.tile t).cols == 128 && decide (rows ≤ (c.tile t).rows), 2, t)

/-- Formats of an input quad (R259). -/
def inputFmt (f : Nat) : Bool := f == 1 || f == 2 || f == 3 || f == 4 || f == 6

/-- The checks of step 11 of R256 (R259): the reason and the tile. -/
def Core.arrOperands (c : Core) (i : Instr) : Option (Nat × Nat) :=
  let v := c.ap
  firstFailure (match i with
    | .afwd _ x _ y _ _ | .abwd _ x _ y _ _ =>
      c.quadFormats (4 * x.toNat) 3 inputFmt ++ c.quadFormats (4 * y.toNat) 6 (fun f => f == 1 || f == 6) ++
        c.quadShapes (4 * x.toNat) (par v 0) ++ c.quadShapes (4 * y.toNat) (par v 0) ++ [(x != y, 2, 4 * y.toNat)]
    | .aupd _ x _ y _ _ =>
      c.quadFormats (4 * x.toNat) 3 inputFmt ++ c.quadFormats (4 * y.toNat) 3 inputFmt ++
        c.quadShapes (4 * x.toNat) (par v 0) ++ c.quadShapes (4 * y.toNat) (par v 0)
    | .acal _ y _ _ => c.quadFormats (4 * y.toNat) 6 (· == 1) ++ c.quadShapes (4 * y.toNat) 1
    | .aasy _ y _ _ => c.quadFormats (4 * y.toNat) 6 (· == 1) ++ c.quadShapes (4 * y.toNat) (par v 14)
    | .aprog _ x _ _ => c.quadFormats (4 * x.toNat) 3 inputFmt ++ c.quadShapes (4 * x.toNat) (par v 14)
    | .astat _ y _ _ =>
      [((c.tile y.toNat).fmt == 7 || (c.tile y.toNat).fmt == 5, 6, y.toNat),
        (decide (8 ≤ (c.tile y.toNat).cols), 2, y.toNat)]
    | _ => [])

/-- Operations in progress on a core, whose panels are active (R18). -/
def Core.active (c : Core) : List ArrOp := c.arr.filter fun o => !o.finished

/-- Step 10 of R256, but for the claims, the lamp and %pace: the panel is not active, no write of s_w waits for it
(R339), and fewer than 8 panels are active. -/
def Core.panelFree (c : Core) (p : Nat) : Bool :=
  !c.active.any (fun o => o.panel == p) && decide (c.active.length < 8) && (c.panel p).pendingSw.isNone

/-- The cursor after an issue (R257): AXFR advances ap.c0. -/
def advanceCursor (i : Instr) (v : Vector Word 24) : Vector Word 24 :=
  match i with
  | .axfr .. => v.set 8 (word ((par v 8 + par v 9) % 512))
  | _ => v

/-- An array instruction issues (R257). -/
def State.startArray (s : State) (k p plane : Nat) (i : Instr) : State :=
  let c := s.core k
  let q := s.pos k .a
  let o : ArrOp := ⟨i, p, plane, c.ap, 0, 0, false, false, false, [], false, false, q.hdr, q.off, s.order⟩
  let c1 : Core := { c.claim (arrUses i) with arr := c.arr ++ [o], ap := advanceCursor i c.ap }
  let c2 := if isHeavy i then c1.setStream .a { c1.strA with lastHeavy := some c.ticks } else c1
  let s1 := ((s.setCore k c2).tick).retire k .a 2
  if pulses i then s1.commit k else s1

/-- Step 11 of R256, and the issue. -/
def State.arrBegin (s : State) (k p plane : Nat) (i : Instr) : State :=
  match (s.core k).arrOperands i with
  | some f => s.raise k .a 0x06 (tileInfo f.1 f.2)
  | none => s.startArray k p plane i

/-- Step 10 of R256: a heavy instruction asks for the lamp, and a FREE lamp is granted at once (R130). -/
def State.arrClaim (s : State) (k p plane : Nat) (i : Instr) : State :=
  let c := s.core k
  if c.panelFree p = false || c.accepts (arrUses i) = false || (isHeavy i && !s.paceReady k .a) then
    s.waitOn k .a (.panel i p plane)
  else if !isHeavy i || s.holdsLamp k then s.arrBegin k p plane i
  else if (s.askLamp k).holdsLamp k then (s.askLamp k).arrBegin k p plane i
  else (s.askLamp k).waitOn k .a (.panel i p plane)

/-- BASE of the plane AMASK names, 0 for another instruction. -/
def State.planeBase (s : State) (k : Nat) (i : Instr) : Nat :=
  match i with
  | .amask _ l _ => (match s.planeCheck k l.toNat with | .ok b => b | .error _ => 0)
  | _ => 0

/-- An array instruction at the A stream makes its checks, steps 1 to 9 of R256, and goes on to step 10. -/
def State.arrFirst (s : State) (k : Nat) (i : Instr) : State :=
  let f := arrPanel i
  if f.2 && (s.core k).pending .a f.1 then s.waitOn k .a .register
  else
    let v := if f.2 then (s.reg k .a f.1).toNat else f.1.toNat
    if 31 < v then s.raise k .a 0x0D (word (256 * 5 + 2 ^ 16 * (v % 2 ^ 48)))
    else
      match s.arrChecks k v i with
      | some e => s.raise k .a e.1 e.2
      | none => s.arrClaim k v (s.planeBase k i) i

/-- The array instruction of the stream that waits at step 10: its panel and plane. -/
def Stream.atPanel (x : Stream) : Option (Instr × Nat × Nat) :=
  match x.wait with
  | some (.panel i p b, _) => some (i, p, b)
  | _ => none

/-- An array instruction at the A stream (R256): one that waits at step 10 makes no earlier check again. -/
def State.arrIssue (s : State) (k : Nat) (i : Instr) : State :=
  match (s.stream k .a).atPanel with
  | some (j, p, b) => if j = i then s.arrClaim k p b i else s.arrFirst k i
  | none => s.arrFirst k i

/-- An array instruction of the A stream. -/
def arrayOp (i : Instr) (s : State) : Out := onTurn s fun k st => s.ownedBy k st .a i (s.arrIssue k i)

/-- ARRAY_ISSUE (R257): the instruction that waits at the A stream tries again. -/
def execArrayIssue (k : Nat) (s : State) : Out :=
  match (s.stream k .a).atPanel with
  | some (i, p, b) => .next (if s.runnable k .a then s.arrClaim k p b i else s)
  | none => .next s

/-! ### Vectors of a quad (R259) -/

/-- Element e of vector v of a quad, as FP32 with the status of its reading. -/
def Core.vecElem (c : Core) (b v e : Nat) : Val × Status := (c.tile (b + e / 128)).value 0 v (e % 128)

/-- Row v of a quad written with 512 codes. -/
def Core.putVector (c : Core) (b v : Nat) (codes : List Nat) : Core :=
  let row (c : Core) (n : Nat) : Core := c.setTile (b + n) ((c.tile (b + n)).setRow v ((codes.drop (128 * n)).take 128))
  row (row (row (row c 0) 1) 2) 3

/-! ### Stop units (R260 to R274) -/

/-- Stop units of an operation (R274). -/
def ArrOp.total (o : ArrOp) : Nat :=
  match o.instr with
  | .afwd .. | .abwd .. => par o.params 0
  | .aupd .. => (par o.params 0 + 1) / 2
  | .axfr .. | .azero .. | .argrw .. => par o.params 9
  | .acal .. => 64 + 2 * par o.params 9
  | .aasy .. | .aprog .. => par o.params 14
  | _ => 1

/-- An operation with more results. -/
def ArrOp.more (o : ArrOp) (n : Nat) (ov nv sat : Bool) : ArrOp :=
  { o with count := o.count + n, ov := o.ov || ov, nv := o.nv || nv, sat := o.sat || sat }

/-- One vector of AFWD or ABWD (R260). -/
def readUnit (q : Physics) (c : Core) (o : ArrOp) (transposed : Bool) (xb yb : Nat) : Core × ArrOp :=
  let v := o.params
  let p := c.panel o.panel
  let full : Rat := (par v 7 : Rat) / 511
  let drv := if transposed then colsOf v else rowsOf v
  let out := if transposed then rowsOf v else colsOf v
  let x (e : Nat) : Val × Status := c.vecElem xb o.units e
  let vals := drv.map fun e => (x e).1
  let ins := Status.all (drv.map fun e => let y := x e; { y.2 with nv := y.2.nv || y.1.isNan })
  if par v 5 = 1 ∧ vals.any Val.isNonzero = false then
    (c.putVector yb o.units (List.replicate 512 0), o.more 0 ins.ov ins.nv false)
  else
    let sx := if par v 5 = 1 then maxAbs vals / 127 else parFp v 6
    let codes : List (Nat × Int × Bool) := drv.map fun e => (e, dacCode sx (x e).1)
    let d (e : Nat) : Rat := match tfind (codes.map fun y => (y.1, y.2.1)) e with
      | some n => q.drive 0 e n
      | none => 0
    let adcOut := (c.tile yb).fmt == 6
    let gain (e : Nat) : Rat := if transposed then p.rowGain e else p.gain e
    let ys : List (Nat × Nat × Bool × Bool) := out.map fun e =>
      let a := q.adc e (gain e) (p.dot transposed (parFp v 4) d e) full
      let r := if adcOut then (intCode 16 (decide (a.1 < 0)) a.1.natAbs, Status.clear) else ratTo 1 (a.1 * full * sx * p.scale * gain e)
      (e, r.1, a.2, r.2.ov)
    let row := (List.range 512).map fun e => ((tfind (ys.map fun y => (y.1, y.2.1)) e).getD 0)
    (c.putVector yb o.units row,
      o.more (ys.filter fun y => y.2.2.1).length (ins.ov || ys.any fun y => y.2.2.2) ins.nv
        (codes.any (fun y => y.2.2) || ys.any fun y => y.2.2.1))

/-- One slot of AUPD: the cells that receive a pulse, in rising order (R261). -/
def updSlot (p : Panel) (v : Vector Word 24) (xs ds : List (Nat × Nat × Bool)) (br bc : List Nat) : List (Nat × Bool) :=
  let rows := xs.filter fun x => decide (br.getD x.1 0 < x.2.1)
  let cols := ds.filter fun x => decide (bc.getD x.1 0 < x.2.1)
  rows.flatMap fun x => cols.filterMap fun y =>
    if parFlag v 1 && !p.live x.1 y.1 then none
    else some (cellNo x.1 y.1, (x.2.2 == y.2.2) != parFlag v 0)

/-- The slots of one vector of AUPD. -/
def updSlots (q : Physics) (v : Vector Word 24) (xs ds : List (Nat × Nat × Bool)) (n : Nat) : Nat → Panel × Nat → Panel × Nat
  | 0, r => r
  | slots + 1, r =>
    let b := r.1.drawSlot
    let l := updSlot r.1 v xs ds b.1 b.2.1
    updSlots q v xs ds (n + 262144) slots (b.2.2.pulseCells q n (!parFlag v 1) l, r.2 + l.length)

/-- Codes and signs of a vector's elements over lines that are not frozen (R52, R261). -/
def updCodes (c : Core) (b v : Nat) (scale : Rat) (lines : List Nat) : List (Nat × Nat × Bool) :=
  lines.map fun e => let x := (c.vecElem b v e).1; (e, pulseCode scale x, x.neg)

/-- One vector of AUPD. -/
def updVector (q : Physics) (c : Core) (o : ArrOp) (xb yb n : Nat) (r : Panel × Nat) : Panel × Nat :=
  let v := o.params
  if n < par v 0 then
    updSlots q v (updCodes c xb n (parFp v 2) ((rowsOf v).filter fun i => !frozenRow v i))
      (updCodes c yb n (parFp v 3) ((colsOf v).filter fun j => !frozenCol v j)) (n % 2 * 63 * 262144) (par v 1) r
  else r

/-- Two vectors of AUPD (R261, R274). -/
def updUnit (q : Physics) (c : Core) (o : ArrOp) (xb yb : Nat) : Core × ArrOp :=
  let r := updVector q c o xb yb (2 * o.units + 1) (updVector q c o xb yb (2 * o.units) (c.panel o.panel, 0))
  (c.setPanel o.panel r.1, o.more r.2 false false false)

/-- The slots of one column of AXFR: rows with their codes and the sign of u (R262). -/
def transferSlots (q : Physics) (v : Vector Word 24) (col : Nat) (us : List (Nat × Nat × Bool)) (n : Nat) :
    Nat → Panel × Nat → Panel × Nat
  | 0, r => r
  | slots + 1, r =>
    let b := r.1.drawSlot
    let l := if frozenCol v col then [] else
      us.filter fun u => decide (b.1.getD u.1 0 < u.2.1) && r.1.live u.1 col
    let p1 := b.2.2.pulseCells q n false (l.map fun u => (cellNo u.1 col, !u.2.2))
    let p2 := if parFlag v 2 then p1.pulseCells q (n + 262144) true (l.map fun u => (cellNo u.1 col, u.2.2)) else p1
    transferSlots q v col us (n + 524288) slots (p2, r.2 + l.length)

/-- One column of AXFR (R262). -/
def transferUnit (q : Physics) (c : Core) (o : ArrOp) : Core × ArrOp :=
  let v := o.params
  let p := c.panel o.panel
  let col := (par v 8 + o.units) % 512
  let full : Rat := (par v 7 : Rat) / 511
  let us : List (Nat × Nat × Bool) := ((rowsOf v).filter fun i => !frozenRow v i).map fun i =>
    let u0 := estimate q (16 * i) (par v 12) (p.fastAt i col) full (p.rowGain i) - p.symmetry col
    let u := if ratAbs u0 < parFp v 11 then 0 else u0
    (i, min 256 (rneRat (ratAbs u * parFp v 10 * 256)).toNat, decide (0 < u))
  let r := transferSlots q v col us 262144 (par v 1) (p, 0)
  (c.setPanel o.panel r.1, o.more r.2 false false false)

/-- Cells of some columns, in rising order. -/
def columnCells (cols : List Nat) : List Nat := (List.range 512).flatMap fun i => cols.map (cellNo i)

/-- Pairs of an up slot and a down slot on every fast cell of some columns (R265). -/
def calPairs (q : Physics) (cols : List Nat) (n : Nat) : Nat → Panel → Panel
  | 0, p => p
  | pairs + 1, p =>
    let up := p.pulseCells q n true ((columnCells cols).map fun c => (c, false))
    calPairs q cols (n + 524288) pairs (up.pulseCells q (n + 262144) true ((columnCells cols).map fun c => (c, true)))

/-- Reads of one column at full scale 2,032, as sums of codes of each row (R265). R250 and R265 state that nominally
every such read is 0, wherever the cells began (log 65). -/
def calReads (q : Physics) (n ns : Nat) (p : Panel) (col : Nat) : List Int :=
  (List.range 512).map fun i =>
    if q.nominal then 0 else (q.adcSum (n + 16 * i) (p.rowGain i) (q.drive (n + i) 0 127 * p.fastAt i col) (2032 / 511) ns).1

/-- The last pair of one column with its reads: the panel with SP_c, and r of every row (R265). -/
def calColumn (q : Physics) (v : Vector Word 24) (p : Panel) (col : Nat) : Panel × List Rat × Status :=
  let up := p.pulseCells q 0 true ((columnCells [col]).map fun c => (c, false))
  let a := calReads q 262144 (par v 12) up col
  let down := up.pulseCells q 524288 true ((columnCells [col]).map fun c => (c, true))
  let b := calReads q 786432 (par v 12) down col
  let r : List Rat := (List.range 512).map fun i =>
    ((a.getD i 0 + b.getD i 0 : Int) : Rat) / (2 * par v 12) * (2032 / 511) * p.rowGain i / 127
  let sp := ratTo 1 (r.foldl (· + ·) 0 / 512)
  ({ down with sp := tset 0 down.sp col (BitVec.ofNat 16 sp.1) }, r, sp.2)

/-- The parameters of the write-verify loops, from the copied registers (R263). -/
def loopPars (v : Vector Word 24) : LoopPars := ⟨parFp v 21, par v 20, par v 12, (par v 7 : Rat) / 511⟩

/-- One unit of ACAL: a round of pairs, a column's last pair and reads, or a column driven to SP_c (R265, R274): the
last pair of round 63 goes with the reads, column by column (log 90). -/
def calUnit (q : Physics) (c : Core) (o : ArrOp) (yb : Nat) : Core × ArrOp :=
  let v := o.params
  let p := c.panel o.panel
  let cols := colsOf v
  if o.units < 64 then
    let pairs := if o.units = 63 then par v 1 - 1 else par v 1
    (c.setPanel o.panel (calPairs q cols 0 pairs p), o)
  else if o.units < 64 + par v 9 then
    let r := calColumn q v p (par v 8 + (o.units - 64))
    let kept := if o.kept.isEmpty then r.2.1 else List.zipWith (· + ·) o.kept r.2.1
    let c1 := c.setPanel o.panel r.1
    if o.units + 1 = 64 + par v 9 then
      let ys := kept.map fun x => ratTo 1 (x / par v 9)
      (c1.putVector yb 0 (ys.map Prod.fst), { o with kept := kept }.more 0 (r.2.2.ov || ys.any fun y => y.2.ov) false false)
    else (c1, { o with kept := kept }.more 0 r.2.2.ov false false)
  else
    let r := p.zeroColumn q (loopPars v) (par v 8 + (o.units - 64 - par v 9))
    (c.setPanel o.panel r.1, o.more r.2 false false false)

/-- One column of AZERO (R264). -/
def zeroUnit (q : Physics) (c : Core) (o : ArrOp) : Core × ArrOp :=
  let v := o.params
  let r := (c.panel o.panel).zeroColumn q (loopPars v) (par v 8 + o.units)
  (c.setPanel o.panel r.1, o.more r.2 false false false)

/-- One row of AASY (R247, R266). -/
def assayUnit (q : Physics) (c : Core) (o : ArrOp) (yb : Nat) : Core × ArrOp :=
  let v := o.params
  let p := c.panel o.panel
  let i := par v 13 + o.units
  let ns := par v 12
  let full : Rat := (par v 7 : Rat) / 511
  let w (j : Nat) : Rat :=
    if parFlag v 3 then p.fastAt i j
    else if parFlag v 4 then p.slowAt i j + parFp v 4 * p.fastAt i j
    else p.slowAt i j
  let ys : List ((Nat × Status) × Nat) := (List.range 512).map fun j =>
    let a := q.adcSum (16 * j) (p.gain j) (q.drive 0 i 127 * w j) full ns
    (ratTo 1 ((a.1 : Rat) / ns * full * p.scale * p.gain j / 127), a.2)
  (c.putVector yb o.units (ys.map fun y => y.1.1),
    o.more ((ys.map fun y => y.2).foldl (· + ·) 0) (ys.any fun y => y.1.2.ov) false (ys.any fun y => y.2 != 0))

/-- One row of APROG (R267). -/
def programUnit (q : Physics) (c : Core) (o : ArrOp) (xb : Nat) : Core × ArrOp :=
  let v := o.params
  let p := c.panel o.panel
  let i := par v 13 + o.units
  let fast := parFlag v 3
  let goals := (colsOf v).map fun j =>
    if !fast && !p.live i j then (⟨cellNo i j, 0, some 0⟩ : Goal)
    else goalOf (cellNo i j) (c.vecElem xb o.units j).1 p.scale
  let r := p.program q fast (loopPars v) p.cellGain goals
  (c.setPanel o.panel r.1, o.more r.2 false false false)

/-- The first row of the largest, or smallest, estimate: lower row on a tie. -/
def pick (largest : Bool) : List (Nat × Rat) → Option (Nat × Rat)
  | [] => none
  | x :: l =>
    match pick largest l with
    | none => some x
    | some y => if (if largest then decide (x.2 < y.2) else decide (y.2 < x.2)) then some y else some x

/-- The code of R251 whose live rows are two given ones. -/
def codeOfRows (a b : Nat) : Nat := ((List.range 6).find? fun n => liveRows n == [min a b, max a b]).getD 0

/-- One group of one column of ARGRW: the panel after its swap, or none. The estimates are of the panel as the column found it, `old`
(R269), and each of the two loops has its own reads and bursts (R253). -/
def regrowGroup (q : Physics) (v : Vector Word 24) (old p : Panel) (col g : Nat) : Option Panel :=
  let full : Rat := (par v 7 : Rat) / 511
  let ns := par v 12
  let lv := liveRows (p.maskCode g col)
  let a (i : Nat) : Rat := estimate q (32 * i) ns (old.fastAt i col) full (p.rowGain i) - p.symmetry col
  let w (i : Nat) : Rat := ratAbs (estimate q (32 * i + 16) ns (old.slowAt i col) full (p.rowGain i))
  let pr := pick true ((([0, 1, 2, 3].filter fun r => !lv.contains r)).map fun r => (r, ratAbs (a (4 * g + r))))
  let lr := pick false (lv.map fun r => (r, w (4 * g + r)))
  match pr, lr with
  | some x, some l =>
    if (List.range 4).any (fun r => frozenRow v (4 * g + r)) || decide (x.2 ≤ l.2 + parFp v 18) then none
    else
      let rp := 4 * g + x.1
      let rl := 4 * g + l.1
      let goal (r : Nat) (t : Rat) : Goal := ⟨cellNo r col, weightClamp t, some t⟩
      let t := parFp v 10 * a rp
      let goals := if rl < rp then [goal rl 0, goal rp t] else [goal rp t, goal rl 0]
      let p1 := (p.program q false (loopPars v) p.cellRowGain goals).1
      let p2 := (p1.program q.later true (loopPars v) p.cellRowGain [goal rp (p.symmetry col)]).1
      let other := (lv.filter (· != l.1)).headD 0
      some { p2 with mask := tset 0 p2.mask (128 * col + g) (codeOfRows x.1 other) }
  | _, _ => none

/-- The groups of one column of ARGRW: the panel and the groups swapped. -/
def regrowGroups (q : Physics) (v : Vector Word 24) (old : Panel) (col : Nat) : List Nat → Panel → Panel × List Nat
  | [], p => (p, [])
  | g :: gs, p =>
    match regrowGroup q v old p col g with
    | none => regrowGroups q v old col gs p
    | some p1 => let r := regrowGroups q v old col gs p1; (r.1, g :: r.2)

/-- Writes the nibbles of changed groups into the plane in core scratch (R251, R269). -/
def Core.writeNibbles (c : Core) (issued : Nat) (p : Panel) (col : Nat) : List Nat → Core
  | [] => c
  | g :: gs =>
    let at_ := p.maskHome + 64 * col + g / 2
    let old := (tget 0 c.scratch at_).toNat
    let n := p.maskCode g col
    let new := if g % 2 = 0 then old / 16 * 16 + n else old % 16 + 16 * n
    (if at_ < c.scratchSizeAt (some issued) then { c with scratch := tset 0 c.scratch at_ (BitVec.ofNat 8 new) } else c).writeNibbles issued p col gs

/-- One column of ARGRW (R269). -/
def regrowUnit (q : Physics) (c : Core) (o : ArrOp) : Core × ArrOp :=
  let v := o.params
  let col := par v 8 + o.units
  if frozenCol v col then (c, o)
  else
    let r := regrowGroups q v (c.panel o.panel) col (List.range 128) (c.panel o.panel)
    ((c.setPanel o.panel r.1).writeNibbles o.issued r.1 col r.2, o.more r.2.length false false false)

/-- The nibbles of a plane byte at an offset, low first. -/
def planeNibbles (off : Nat) (b : Byte) : List (Nat × Nat) := [(2 * off, b.toNat % 16), (2 * off + 1, b.toNat / 16)]

/-- The mask plane in core scratch: its codes, or the offset of the first byte that holds a bad one (R251, R268). -/
def readPlane (scratch : List Host.Cell) (base : Nat) : Except Nat (Tbl Nat) :=
  let bytes := scratch.filter fun x => decide (base ≤ x.1 ∧ x.1 < base + planeSize)
  match bytes.find? fun x => decide (6 ≤ x.2.toNat % 16 ∨ 6 ≤ x.2.toNat / 16) with
  | some x => .error (x.1 - base)
  | none => .ok ((bytes.flatMap fun x => planeNibbles (x.1 - base) x.2).filter fun x => x.2 != 0)

/-- ASEED (R270). -/
def seedUnit (c : Core) (o : ArrOp) : Core × ArrOp :=
  let seed : Word := o.params.toList.getD 19 0
  (c.setPanel o.panel { c.panel o.panel with rowGen := seeded seed, colGen := seeded (~~~ seed) }, o)

/-- The elements ASTAT writes (R271). -/
def Panel.health (p : Panel) : List Nat :=
  let wear := (p.wear.map fun x => x.2).foldl max 0 / 1024
  [bit p.calibrated + 2 * bit p.spare + 4 * bit p.maskBound + 8 * bit p.advise, p.sw.toNat, wear % 2 ^ 32, wear / 2 ^ 32 % 2 ^ 32,
    p.rowGen.toNat % 2 ^ 32, p.rowGen.toNat / 2 ^ 32, p.colGen.toNat % 2 ^ 32, p.colGen.toNat / 2 ^ 32]

/-- ASTAT (R271). -/
def statUnit (c : Core) (o : ArrOp) (y : Nat) : Core × ArrOp :=
  (c.setTile y ((c.tile y).setRow 0 (c.panel o.panel).health), o)

/-- One stop unit of an operation, but for AMASK. -/
def arrayUnit (q : Physics) (c : Core) (o : ArrOp) : Core × ArrOp :=
  match o.instr with
  | .afwd _ x _ y _ _ => readUnit q c o false (4 * x.toNat) (4 * y.toNat)
  | .abwd _ x _ y _ _ => readUnit q c o true (4 * x.toNat) (4 * y.toNat)
  | .aupd _ x _ y _ _ => updUnit q c o (4 * x.toNat) (4 * y.toNat)
  | .axfr .. => transferUnit q c o
  | .acal _ y _ _ => calUnit q c o (4 * y.toNat)
  | .aasy _ y _ _ => assayUnit q c o (4 * y.toNat)
  | .aprog _ x _ _ => programUnit q c o (4 * x.toNat)
  | .argrw .. => regrowUnit q c o
  | .aseed .. => seedUnit c o
  | .astat _ y _ _ => statUnit c o y.toNat
  | .azero .. => zeroUnit q c o
  | _ => (c, o)

/-- Charge of one stop unit (R409); a unit of write-verify loops takes a free number of pulse slots, which `n` names
(log 12). -/
def ArrOp.unitCharge (o : ArrOp) (n : Nat) : Nat :=
  let v := o.params
  match o.instr with
  | .afwd .. | .abwd .. => 2100000
  | .aupd .. => 78000 * par v 1 * min 2 (par v 0 - 2 * o.units)
  | .axfr .. => 2100000 * par v 12 + 78000 * par v 1
  | .acal .. =>
    if o.units < 64 then 78000 * 2 * par v 1
    else if o.units < 64 + par v 9 then 2100000 * 2 * par v 12
    else 78000 * Config.burstSlots n
  | .aasy .. => 2100000 * par v 12
  | .aprog .. | .azero .. => 78000 * Config.burstSlots n
  | .argrw .. => if frozenCol v (par v 8 + o.units) then 0 else 78000 * Config.burstSlots n
  | _ => 0

/-- Replaces the operation of a panel. -/
def Core.setOp (c : Core) (o : ArrOp) : Core :=
  { c with arr := c.arr.map fun x => if x.panel = o.panel && !x.finished then o else x }

/-- The operation of a panel in progress. -/
def Core.opOf (c : Core) (p : Nat) : Option ArrOp := c.arr.find? fun o => o.panel == p && !o.finished

/-- An operation after one more unit. -/
def ArrOp.step (o : ArrOp) : ArrOp := { o with units := o.units + 1, ready := decide (o.total ≤ o.units + 1) }

/-- The number of a physical panel of the device, by which its cells are named: a spare has cells of its own. -/
def panelKey (k p : Nat) (spare : Bool) : Nat := 128 * k + 2 * p + bit spare

/-- One unit of an operation other than AMASK. A real panel has drifted since the last one (R253). -/
def State.arrUnit (s : State) (k : Nat) (o : ArrOp) : State :=
  let c := s.core k
  let p := c.panel o.panel
  let q : Physics := ⟨s.nominal, s.draws, panelKey k o.panel p.spare⟩
  let r := arrayUnit q (c.setPanel o.panel (p.drift q)) o
  let s1 := (s.setCore k (r.1.setOp r.2.step)).charge k (o.unitCharge s.draws)
  { s1 with draws := s1.draws + unitSpan }

/-- Completed operations at the front write ap.stat, in issue order (R257). -/
def Core.writeCounts (c : Core) : Nat → Core
  | 0 => c
  | n + 1 =>
    match c.arr with
    | o :: rest => if o.finished then ({ c with arr := rest, ap := c.ap.set 23 (word o.count) } : Core).writeCounts n else c
    | [] => c

/-- An operation ends without completing, and the held counts behind it are written (R257, log 40). -/
def Core.dropOp (c : Core) (o : ArrOp) : Core :=
  ({ c with arr := c.arr.filter fun x => !(x.panel == o.panel && !x.finished) } : Core).writeCounts c.arr.length

/-- AMASK reads its plane (R268): the panel takes the codes, or cause 0x0D and the operation ends. -/
def State.maskUnit (s : State) (k : Nat) (o : ArrOp) : State :=
  let c := s.core k
  match readPlane c.scratch o.plane with
  | .error off =>
    (s.setCore k (c.dropOp o)).raiseAt k .a 0x0D (word (o.panel + 256 * 7 + 2 ^ 32 * off)) o.hdr o.off
  | .ok t =>
    let x := { c.panel o.panel with mask := t, maskBound := true, maskHome := o.plane }
    s.setCore k ((c.setPanel o.panel x).setOp { o.step with count := 131072 })

/-- ARRAY_UNIT (R274): one stop unit, where nothing stops the core. A heavy one needs the lamp; without it the core
asks. -/
def execArrayUnit (k p : Nat) (s : State) : Out :=
  match (s.core k).opOf p with
  | none => .next s
  | some o =>
    if o.ready || !s.unitsRun k || (o.reading && (s.core k).accessesBefore .a o.issued) then .next s
    else if isHeavy o.instr && !s.holdsLamp k then .next (s.askLamp k)
    else
      .next (match o.instr with
        | .amask _ _ _ => s.maskUnit k o
        | _ => s.arrUnit k o)

/-! ### Completion (R257) -/

/-- ORs status into the four tiles of the output quad. -/
def Core.quadStatus (c : Core) (o : ArrOp) : Core :=
  let st : Status := ⟨o.ov, o.nv, o.sat, false⟩
  let f (c : Core) (t : Nat) : Core := c.setTile t ((c.tile t).merge st)
  match o.instr with
  | .afwd _ _ _ y _ _ | .abwd _ _ _ y _ _ | .acal _ y _ _ | .aasy _ y _ _ => (quad (4 * y.toNat)).foldl f c
  | _ => c

/-- Units of progress that a stopped operation shows in ap.vdone (R70, R274): vectors of AUPD, else its stop units. -/
def ArrOp.progress (o : ArrOp) : Nat :=
  match o.instr with
  | .aupd .. => min (2 * o.units) (par o.params 0)
  | _ => o.units

/-- The array parameter registers as a save finds them (R70, R275): ap.vdone holds the progress of the earliest-issued
operation that has stopped, 0 if none has. -/
def Core.savedPars (c : Core) : Vector Word 24 :=
  c.ap.set 22 (word (((c.arr.find? fun o => !o.finished).map ArrOp.progress).getD 0))

/-- ARRAY_COMPLETE (R257). -/
def execArrayComplete (k p : Nat) (s : State) : Out :=
  match (s.core k).opOf p with
  | none => .next s
  | some o =>
    if !o.ready || !s.completes k then .next s
    else
      let c1 := (((s.core k).quadStatus o).release (arrUses o.instr)).setOp { o with finished := true }
      .next ((s.setCore k (c1.writeCounts c1.arr.length)).enterTrap k)

/-! ### ASET (R70, R272) -/

/-- An FP32 value meets the range of its parameter: 0 for finite and at least +0, 1 for finite and above 0, 2 for
-16 to 16. -/
def fpRange (kind : Nat) (w : Word) : Bool :=
  let x := fp32 (w.setWidth 32)
  match x with
  | .fin neg m _ =>
    match kind with
    | 0 => !neg || m == 0
    | 1 => !neg && m != 0
    | _ => decide (ratAbs x.rat ≤ 16)
  | _ => false

/-- The ranges of R70. -/
def parRange (n : Nat) (w : Word) : Bool :=
  let v := w.toNat
  match n with
  | 0 => decide (1 ≤ v ∧ v ≤ 128)
  | 1 => decide (1 ≤ v ∧ v ≤ 63)
  | 2 | 3 | 10 | 11 | 18 => fpRange 0 w
  | 4 => fpRange 2 w
  | 5 => decide (v ≤ 1)
  | 6 | 21 => fpRange 1 w
  | 7 => decide (1 ≤ v ∧ v ≤ 65535)
  | 8 | 13 => decide (v ≤ 511)
  | 9 | 14 => decide (1 ≤ v ∧ v ≤ 512)
  | 12 => [1, 2, 4, 8, 16].contains v
  | 15 => decide (v < 32) && v / 8 % 4 != 3
  | 16 | 17 => decide (v % 2 ^ 32 ≤ 512 ∧ v / 2 ^ 32 ≤ 512)
  | 19 => true
  | 20 => decide (1 ≤ v ∧ v ≤ 255)
  | _ => false

/-- A parameter of FP32 kind takes the low word alone. -/
def parWord (n : Nat) (w : Word) : Word := if [2, 3, 4, 6, 10, 11, 18, 21].contains n then word (w.toNat % 2 ^ 32) else w

/-- A core with a parameter register written. -/
def Core.setPar (c : Core) (n : Nat) (w : Word) : Core := { c with ap := c.ap.set! n w }

/-- ASET_WRITE (R70). -/
def execAsetWrite (p : BitVec 5) (r : Reg) (s : State) : Out :=
  onTurn s fun k st =>
    s.ownedBy k st .a (.asetWrite p r)
      (if s.anyPending k .a [r] then s.waitOn k .a .register
      else if 22 ≤ p.toNat then s.raise k .a 0x0E (arrInfo p.toNat 2)
      else if parRange p.toNat (s.reg k .a r) = false then s.raise k .a 0x0E (arrInfo p.toNat 1)
      else (s.setCore k ((s.core k).setPar p.toNat (parWord p.toNat (s.reg k .a r)))).retire k .a 2)

/-- ASET_READ (R70, R272): ap.stat waits for every earlier operation; ap.vdone and 24 to 31 read zero. -/
def execAsetRead (p : BitVec 5) (r : Reg) (s : State) : Out :=
  onTurn s fun k st =>
    s.ownedBy k st .a (.asetRead p r)
      (if s.anyPending k .a [r] then s.waitOn k .a .register
      else if p.toNat = 23 ∧ (s.core k).arr ≠ [] then s.waitOn k .a .arrays
      else (s.setReg k .a r (if p.toNat = 22 then 0 else (s.core k).ap.toList.getD p.toNat 0)).retire k .a 2)

/-! ### The instructions -/

/-- AFWD (R260). -/
def execAfwd (p : BitVec 5) (x : BitVec 3) (m : BitVec 1) (y : BitVec 3) (j i : BitVec 1) (s : State) : Out :=
  arrayOp (.afwd p x m y j i) s

/-- ABWD (R260). -/
def execAbwd (p : BitVec 5) (x : BitVec 3) (m : BitVec 1) (y : BitVec 3) (j i : BitVec 1) (s : State) : Out :=
  arrayOp (.abwd p x m y j i) s

/-- AUPD (R261). -/
def execAupd (p : BitVec 5) (x : BitVec 3) (m : BitVec 1) (y : BitVec 3) (j i : BitVec 1) (s : State) : Out :=
  arrayOp (.aupd p x m y j i) s

/-- AXFR (R262). -/
def execAxfr (p : BitVec 5) (i : BitVec 1) (s : State) : Out := arrayOp (.axfr p i) s

/-- ACAL (R265). -/
def execAcal (p : BitVec 5) (y : BitVec 3) (j i : BitVec 1) (s : State) : Out := arrayOp (.acal p y j i) s

/-- AASY (R266). -/
def execAasy (p : BitVec 5) (y : BitVec 3) (j i : BitVec 1) (s : State) : Out := arrayOp (.aasy p y j i) s

/-- APROG (R267). -/
def execAprog (p : BitVec 5) (x : BitVec 3) (m i : BitVec 1) (s : State) : Out := arrayOp (.aprog p x m i) s

/-- ARGRW (R269). -/
def execArgrw (p : BitVec 5) (i : BitVec 1) (s : State) : Out := arrayOp (.argrw p i) s

/-- AMASK (R268). -/
def execAmask (p : BitVec 5) (l : BitVec 8) (i : BitVec 1) (s : State) : Out := arrayOp (.amask p l i) s

/-- ASEED (R270). -/
def execAseed (p : BitVec 5) (i : BitVec 1) (s : State) : Out := arrayOp (.aseed p i) s

/-- ASTAT (R271). -/
def execAstat (p y : BitVec 5) (j i : BitVec 1) (s : State) : Out := arrayOp (.astat p y j i) s

/-- AZERO (R264). -/
def execAzero (p : BitVec 5) (i : BitVec 1) (s : State) : Out := arrayOp (.azero p i) s

end Sys2Proof.Machine
end

