-- ==== Sys2Proof/Machine/Queue.lean ====
section
/-! DEFINITION. Task queues: tickets, entries, the sump, refill, spill faults and their registers (R129, R200 to R204,
R324, R357 to R361). -/

namespace Sys2Proof.Machine

/-! ### A queue -/

/-- %trapinfo of cause 0x11 (R204). -/
def queueInfo (v reason : Nat) : Word := word (v % 2 ^ 32 + 2 ^ 32 * reason)

/-- Queue id: cluster and queue (R200). -/
def queueId (cl q : Nat) : Nat := 4 * cl + q

/-- A queue by its id. -/
def State.queue (s : State) (id : Nat) : TaskQueue := tget TaskQueue.reset (s.cluster (id / 4)).queues (id % 4)

/-- Replaces a queue. -/
def State.setQueue (s : State) (id : Nat) (q : TaskQueue) : State :=
  let c := s.cluster (id / 4)
  s.setCluster (id / 4) { c with queues := tput c.queues (id % 4) q }

/-- The cluster is a member of a formed partition. -/
def Pcb.member (b : Pcb) (cl : Nat) : Bool := b.formed && b.clusters.getLsbD cl

/-- The queue can be named by a core (R200, R204, reason 1); a take needs the core's own cluster. -/
def State.queueOk (s : State) (k : Nat) (id : Nat) (take : Bool) : Bool :=
  let part := (s.core k).part
  (s.pcb part).member (id / 4) && (s.queue id).en && (s.queue id).owner == part && (!take || id / 4 == clusterOf k)

/-- Hardware entries occupied: reserved, published, or waiting for a refill (R358). -/
def TaskQueue.occupied (q : TaskQueue) : Nat := (q.slots.filter fun x => x.ring.isNone || x.waits).length

/-- The next reservation takes a hardware entry (R358). -/
def TaskQueue.entryFree (q : TaskQueue) : Bool := q.scount == 0 && decide (q.occupied < 32)

/-- The queue has room (R203). -/
def TaskQueue.room (q : TaskQueue) : Bool := q.entryFree || decide (q.scount < 2 ^ q.slog)

/-- The queue is spill-blocked (R360). -/
def TaskQueue.spillBlocked (q : TaskQueue) : Bool := q.faulted.isSome

/-- A reservation: the next ticket, with a hardware entry or the next sump slot (R358). An entry that was freed before and has no slot
to wait for waits for this one (R359). -/
def TaskQueue.reserve (q : TaskQueue) : TaskQueue :=
  let tail := (q.tail + 1) % 2 ^ 32
  if q.entryFree then { q with tail := tail, slots := q.slots ++ [⟨q.tail, none, .reserved, false, 0⟩] }
  else
    let x : Slot := ⟨q.tail, some ((q.shead + q.scount) % 2 ^ 21), .reserved, !q.freed.isEmpty, q.freed.headD 0⟩
    { q with tail := tail, scount := q.scount + 1, slots := q.slots ++ [x], freed := q.freed.drop 1 }

/-- The slot of a ticket. -/
def TaskQueue.slotOf (q : TaskQueue) (t : Nat) : Option Slot := q.slots.find? fun x => x.ticket == t

/-- The ticket's slot lies in the sump. -/
def TaskQueue.inSump (q : TaskQueue) (t : Nat) : Bool :=
  match q.slotOf t with
  | some x => x.ring.isSome
  | none => false

/-- Changes the slot of a ticket. -/
def TaskQueue.setSlot (q : TaskQueue) (t : Nat) (f : Slot → Slot) : TaskQueue :=
  { q with slots := q.slots.map fun x => if x.ticket = t then f x else x }

/-- Address of a sump ring position (R358). -/
def TaskQueue.slotAddr (q : TaskQueue) (pos : Nat) : Nat := q.sbase + 64 * (pos % 2 ^ q.slog)

/-! ### The sump -/

/-- Writes 64 bytes of a sump at their home: device memory of the owner, or scratch banks of the cluster (R357,
R358). -/
def State.sumpWrite (s : State) (id addr : Nat) (ws : List Word) : State × Option MemFail :=
  let q := s.queue id
  let bs := ws.flatMap fun w => leBytes 8 w.toNat
  if q.sspace then
    if (s.cluster (id / 4)).scratchBanks addr 64 then
      ((s.chargeTag (s.pcb q.owner).tag (200 * 64)).homeSetAll 0 ((numbered addr bs).map fun p => (Loc.cluster (id / 4) p.1, p.2)), none)
    else (s, some (memFail 0x0B addr 0 0))
  else s.writeVirtual (id / 4) q.owner addr bs

/-- Reads the 64 bytes of a sump slot at their home, as eight words, and whether one of them holds an uncorrectable
error. -/
def State.sumpRead (s : State) (id addr : Nat) : State × Except MemFail (List Word × Bool) :=
  let q := s.queue id
  let words (bs : List Byte) : List Word := (List.range 8).map fun i => word (leNat ((bs.drop (8 * i)).take 8))
  if q.sspace then
    let ls := (List.range 64).map fun i => Loc.cluster (id / 4) (addr + i)
    if (s.cluster (id / 4)).scratchBanks addr 64 then
      (s.chargeTag (s.pcb q.owner).tag (200 * 64), .ok (words (ls.map (s.homeGet 0)), ls.any s.locBad))
    else (s, .error (memFail 0x0B addr 0 0))
  else
    match s.readChecked (id / 4) q.owner addr 64 with
    | (s1, .error f) => (s1, .error f)
    | (s1, .ok (bs, bad)) => (s1, .ok (words bs, bad))

/-- The sump head as a refill finds it: the first slot in the sump. -/
def TaskQueue.sumpHead (q : TaskQueue) : Option Slot := q.slots.find? fun x => x.ring.isSome

/-- The sump head moves into the hardware entry that waits for it (R359). With the sump empty, no entry waits any more. -/
def TaskQueue.refilled (q : TaskQueue) (t : Nat) (st : SlotState) : TaskQueue :=
  let q1 := q.setSlot t fun x => { x with ring := none, waits := false, state := st }
  { q1 with shead := (q.shead + 1) % 2 ^ 21, scount := q.scount - 1, rblk := false, freed := if q.scount ≤ 1 then [] else q.freed }

/-- Refills the entries that wait, in ticket order, until one must wait or its read faults (R359, R360). An uncorrectable
error in a sump refill resets the owner, and the entry is not filled before that (R386). -/
def State.fillQueue (s : State) (id : Nat) : Nat → State
  | 0 => s
  | fuel + 1 =>
    let q := s.queue id
    match q.sumpHead with
    | none => s
    | some x =>
      if x.waits = false then s
      else
        match x.state with
        | .void => (s.setQueue id (q.refilled x.ticket .void)).fillQueue id fuel
        | .sump =>
          let addr := q.slotAddr (x.ring.getD 0)
          match s.sumpRead id addr with
          | (s1, .ok (ws, false)) => (s1.setQueue id ((s1.queue id).refilled x.ticket (.entry ws))).fillQueue id fuel
          | (s1, .ok (_, true)) => s1.resetLater q.owner
          | (s1, .error f) =>
            (s1.setQueue id { s1.queue id with rblk := true }).report q.owner
              (mkReport 3 q.owner id x.taker x.ticket f.cause addr 0)
        | _ => s

/-- Refills what can be refilled, unless the queue is refill-blocked. -/
def State.fill (s : State) (id : Nat) : State :=
  if (s.queue id).rblk then s else s.fillQueue id (s.queue id).slots.length

/-! ### Putting -/

/-- The put of a ticket leaves its slot published. -/
def State.published (s : State) (id t : Nat) (st : SlotState) : State :=
  (s.setQueue id ((s.queue id).setSlot t fun x => { x with state := st })).fill id

/-- Suspends every core of the crew core k belongs to (R360). -/
def State.suspendAll (s : State) : List Nat → State
  | [] => s
  | k :: r => ((s.dropWaits k).setCore k { (s.dropWaits k).core k with suspended := true }).suspendAll r

/-- Lets the cores of a crew go on. -/
def State.resumeAll (s : State) : List Nat → State
  | [] => s
  | k :: r => (s.setCore k { s.core k with suspended := false }).resumeAll r

/-- Cores of the crew a core belongs to. -/
def State.crewOf (s : State) (k : Nat) : List Nat :=
  match (s.core k).point with
  | some p => crewCores p.kind p.base
  | none => [k]

/-- Takes a ticket off a stream. -/
def State.dropTicket (s : State) (k : Nat) (st : StreamId) (id t : Nat) : State :=
  let x := s.stream k st
  s.setStream k st { x with tickets := x.tickets.filter fun p => p != (id, t) }

/-- Gives a ticket to a stream. -/
def State.holdTicket (s : State) (k : Nat) (st : StreamId) (id t : Nat) : State :=
  let x := s.stream k st
  s.setStream k st { x with tickets := if x.tickets.contains (id, t) then x.tickets else x.tickets ++ [(id, t)] }

/-- First core of the crew a core belongs to, and the serial of its point. -/
def State.crewBase (s : State) (k : Nat) : Nat × Nat :=
  match (s.core k).point with
  | some p => (p.base, p.serial)
  | none => (k, 0)

/-- The report of a spill-write fault (R360, R363): first core and serial of the crew that put, which may stand saved by now. -/
def State.reportSpill (s : State) (id t : Nat) (crew : Nat × Nat) (f : MemFail) : State :=
  let q := s.queue id
  let addr := q.slotAddr (((q.slotOf t).bind fun x => x.ring).getD 0)
  s.report q.owner (mkReport 2 q.owner id crew.1 t f.cause addr crew.2)

/-- A put whose sump write faults: the queue is spill-blocked, the crew suspended, the fault reported (R203, R324,
R360). -/
def State.spill (s : State) (k : Nat) (st : StreamId) (id t : Nat) (ws : List Word) (f : MemFail) : State :=
  let s1 := s.setQueue id { s.queue id with faulted := some ⟨k, st, t, ws, (s.crewBase k).1, (s.crewBase k).2⟩ }
  ((s1.holdTicket k st id t).suspendAll (s1.crewOf k)).reportSpill id t (s.crewBase k) f

/-- The 64 bytes of a record on their way to a queue of another cluster (R409, log 12). -/
def State.chargeRecord (s : State) (k id : Nat) : State :=
  if id / 4 = clusterOf k then s else s.chargeNet (s.pcb (s.core k).part).tag 64

/-- Stores a record at its ticket and releases it (R358). A cluster-scratch sump in other banks refuses the put
(R357). -/
def State.putRecord (s0 : State) (k : Nat) (st : StreamId) (id t : Nat) (ws : List Word) : Except MemFail State :=
  let s := s0.chargeRecord k id
  let q := s.queue id
  if q.inSump t then
    match s.sumpWrite id (q.slotAddr (((q.slotOf t).bind fun x => x.ring).getD 0)) ws with
    | (s1, none) => .ok ((s1.dropTicket k st id t).published id t .sump)
    | (s1, some f) => if q.sspace then .error f else .ok (s1.spill k st id t ws f)
  else .ok ((s.dropTicket k st id t).published id t (.entry ws))

/-- Another put has waited longer at the queue, which a QPUB passes unless there is room for it (R203, R324). -/
def State.putAhead (s : State) (id n : Nat) (pub : Bool) : Bool :=
  s.waiters.any fun w =>
    match w with
    | (m, _, _, .queueRoom x p) => x == id && decide (m < n) && (!pub || p || (s.queue id).room)
    | _ => false

/-! ### The instructions of producers (R201) -/

/-- Raises cause 0x11. -/
def State.queueTrap (s : State) (k : Nat) (st : StreamId) (v reason : Nat) : State :=
  s.raise k st 0x11 (queueInfo v reason)

/-- Bits [63:56] of a record's word 0 are zero, which marks a VOID record (R129). -/
def voidRecord (ws : List Word) : Bool := (ws.headD 0).toNat / 2 ^ 56 == 0

/-- Waits for room, or raises reason 5 under the trap action (R203). -/
def State.needRoom (s : State) (k : Nat) (st : StreamId) (id : Nat) (f : State) : State :=
  let q := s.queue id
  let ahead := s.putAhead id (s.arrival k st (.queueRoom id false)) false
  if q.spillBlocked || (ahead && (q.room || !q.ftrap)) then s.waitOn k st (.queueRoom id false)
  else if q.room && !ahead then f
  else if q.ftrap then s.queueTrap k st id 5
  else s.waitOn k st (.queueRoom id false)

/-- QRES (R201). -/
def execQres (d a : Reg) (s : State) : Out :=
  onTurn s fun k st =>
    if s.anyPending k st [a, d] then s.waitOn k st .register
    else
      let v := (s.reg k st a).toNat
      if v / 512 ≠ 0 ∨ s.queueOk k v false = false then s.queueTrap k st v 1
      else if 4 ≤ (s.stream k st).tickets.length then s.queueTrap k st v 4
      else
        let t := (s.queue v).tail
        s.needRoom k st v
          (((((s.setQueue v (s.queue v).reserve).holdTicket k st v t).setReg k st d (word (t + 2 ^ 32 * v))).commit k).retire k st 2)

/-- QPUB (R201): ra[40:32] is the queue id and ra[31:0] the ticket. -/
def execQpub (d a : Reg) (s : State) : Out :=
  onTurn s fun k st =>
    if s.anyPending k st (a :: (List.range 8).map fun i => BitVec.ofNat 5 (d.toNat + i)) then s.waitOn k st .register
    else
      let id := field (s.reg k st a) 32 9
      let t := field (s.reg k st a) 0 32
      let ws := s.regRun k st d.toNat 8
      if s.queueOk k id false = false then s.queueTrap k st id 1
      else if (s.stream k st).tickets.contains (id, t) = false then s.queueTrap k st t 3
      else if voidRecord ws then s.queueTrap k st t 2
      else if (s.queue id).inSump t &&
          ((s.queue id).spillBlocked || s.putAhead id (s.arrival k st (.queueRoom id true)) true) then
        s.waitOn k st (.queueRoom id true)
      else
        match s.putRecord k st id t ws with
        | .error f => s.raise k st f.cause f.info
        | .ok s1 => (s1.commit k).retire k st 2

/-- QPUT (R201): reserves and publishes in one step. -/
def execQput (d a : Reg) (s : State) : Out :=
  onTurn s fun k st =>
    if s.anyPending k st (a :: (List.range 8).map fun i => BitVec.ofNat 5 (d.toNat + i)) then s.waitOn k st .register
    else
      let v := (s.reg k st a).toNat
      let ws := s.regRun k st d.toNat 8
      if v / 512 ≠ 0 ∨ s.queueOk k v false = false then s.queueTrap k st v 1
      else if voidRecord ws then s.queueTrap k st v 2
      else
        let t := (s.queue v).tail
        s.needRoom k st v
          (match (s.setQueue v (s.queue v).reserve).putRecord k st v t ws with
          | .error f => s.raise k st f.cause f.info
          | .ok s1 => (s1.commit k).retire k st 2)

/-! ### The instructions of consumers (R202) -/

/-- A hardware entry freed by a take waits for the next sump slot without one (R359). -/
def TaskQueue.claimRefill (l : List Slot) (taker : Nat) : List Slot :=
  match l with
  | [] => []
  | x :: r =>
    if x.ring.isSome && !x.waits then { x with waits := true, taker := taker } :: r
    else x :: TaskQueue.claimRefill r taker

/-- The queue without its head, whose entry waits for a sump slot while the sump is in use: one that no entry waits for yet, or else one
still to be reserved (R359). -/
def TaskQueue.drop (q : TaskQueue) (taker : Nat) : TaskQueue :=
  let l := q.slots.drop 1
  let q1 := { q with head := (q.head + 1) % 2 ^ 32, slots := TaskQueue.claimRefill l taker }
  if q.scount ≠ 0 ∧ l.all (fun x => x.ring.isNone || x.waits) then { q1 with freed := q.freed ++ [taker] } else q1

/-- Takes the record at the head, skipping VOID records, which are those whose word 0 has [63:56] zero (R129); none where
QTAKE would wait (R202). -/
def State.takeHead (s : State) (id taker : Nat) : Nat → State × Option (List Word)
  | 0 => (s, none)
  | fuel + 1 =>
    let q := s.queue id
    match q.slots with
    | [] => (s, none)
    | x :: _ =>
      if x.ring.isSome then (s, none)
      else
        match x.state with
        | .entry ws =>
          let s1 := (s.setQueue id (q.drop taker)).fill id
          if voidRecord ws then s1.takeHead id taker fuel else (s1, some ws)
        | .void => ((s.setQueue id (q.drop taker)).fill id).takeHead id taker fuel
        | _ => (s, none)

/-- Another consumer has waited longer at the queue (R202). -/
def State.takeAhead (s : State) (id n : Nat) : Bool :=
  s.waiters.any fun w =>
    match w with
    | (m, _, _, .queueHead x) => x == id && decide (m < n)
    | _ => false

/-- QTAKE or QTRY: `wait` for QTAKE. -/
def take (wait : Bool) (d a : Reg) (s : State) : Out :=
  onTurn s fun k st =>
    if s.anyPending k st (a :: (List.range 8).map fun i => BitVec.ofNat 5 (d.toNat + i)) then s.waitOn k st .register
    else
      let v := (s.reg k st a).toNat
      if v / 512 ≠ 0 ∨ s.queueOk k v true = false then s.queueTrap k st v 1
      else
        match (if s.takeAhead v (s.arrival k st (.queueHead v)) then (s, none)
          else s.takeHead v (s.crewBase k).1 ((s.queue v).slots.length + 1)) with
        | (s1, some ws) => ((s1.setRegs k st d.toNat ws).commit k).retire k st 2
        | (s1, none) =>
          if wait then s1.waitOn k st (.queueHead v)
          else (s1.setRegs k st d.toNat (List.replicate 8 0)).retire k st 2

/-- QTAKE (R202). -/
def execQtake (d a : Reg) (s : State) : Out := take true d a s

/-- QTRY (R202). -/
def execQtry (d a : Reg) (s : State) : Out := take false d a s

/-! ### Registers and commands of a queue (R357, R360 to R362) -/

/-- The partition that holds a cluster, if one is formed of it. -/
def State.partitionOf (s : State) (cl : Nat) : Option Nat :=
  (s.pcbs.find? fun p => p.2.member cl).map fun p => p.1

/-- A host write to a queue register at an offset of BAR 0: a sealed partition drops it and logs it with kind 5 (R362, R398). A
device that a failed check stopped takes none (R400). -/
def State.queueWrite (s : State) (id offset : Nat) (f : State) : State :=
  if s.fwstat ≠ 0 then s else
  match s.partitionOf (id / 4) with
  | none => f
  | some p =>
    if (s.pcb p).isSealed then
      (s.setQueue id { s.queue id with err := 4 }).logHost 5 p offset false
    else f

/-- Leaves an error of R340 in QCMD.ERR. -/
def State.queueErr (s : State) (id e : Nat) : State := s.setQueue id { s.queue id with err := e }

/-- QCFG and QBASE may be written: disabled, or empty with no ticket held (R357). -/
def TaskQueue.quiet (q : TaskQueue) : Bool := !q.en || q.slots.isEmpty

/-- QCFG_WRITE (R357). An accepted write leaves ERR as it is: ERR holds the last command's result or that of a refused
write. -/
def execQcfgWrite (cl n : Nat) (value : Word) (s : State) : Out :=
  let id := queueId (cl % 128) (n % 4)
  let q := s.queue id
  let slog := field value 3 5
  .next (s.queueWrite id (0x00110000 + 32 * id)
    (if !q.quiet then s.queueErr id 5
    else if slog < 6 ∨ 20 < slog ∨ s.partitionOf (id / 4) ≠ some (field value 8 7) then s.queueErr id 3
    else
      let q1 := { q with en := bitAt value 0, ftrap := bitAt value 1, sspace := bitAt value 2, slog := slog, owner := field value 8 7 }
      s.setQueue id (if bitAt value 0 then { q1 with head := 0, tail := 0, scount := 0, shead := 0, slots := [], freed := [], rblk := false } else q1)))

/-- QBASE_WRITE (R357). -/
def execQbaseWrite (cl n : Nat) (value : Word) (s : State) : Out :=
  let id := queueId (cl % 128) (n % 4)
  let q := s.queue id
  .next (s.queueWrite id (0x00110008 + 32 * id)
    (if !q.quiet then s.queueErr id 5
    else if field value 0 6 ≠ 0 then s.queueErr id 3
    else s.setQueue id { q with sbase := field value 0 57 }))

/-- The image is that of the core whose put faulted, saved since (R360). -/
def SavedImage.holdsPut (i : SavedImage) (id : Nat) (p : FaultedPut) : Bool :=
  i.core == p.core && (i.image.stream p.st).tickets.contains (id, p.ticket)

/-- A saved core of a crew whose put has been performed: it holds the ticket no more and is not suspended. -/
def SavedImage.putDone (i : SavedImage) (id : Nat) (p : FaultedPut) : SavedImage :=
  let x := i.image.stream p.st
  let c := if i.holdsPut id p then i.image.setStream p.st { x with tickets := x.tickets.filter fun t => t != (id, p.ticket) } else i.image
  { i with image := { c with suspended := false } }

/-- The images of a save once a faulted put of one of them has been performed. -/
def Save.putDone (v : Save) (id : Nat) (p : FaultedPut) : Save :=
  match v.images.find? fun i => i.holdsPut id p with
  | none => v
  | some j => { v with images := v.images.map fun i => if i.recNo = j.recNo ∧ i.serial = j.serial then i.putDone id p else i }

/-- The crew whose put has been performed goes on: where it stands, or in its save, to go on when it is restored (R324,
R360). -/
def State.putDone (s : State) (id : Nat) (p : FaultedPut) : State :=
  if s.saves.any fun x => x.2.images.any fun i => i.holdsPut id p then
    { s with saves := s.saves.map fun x => (x.1, x.2.putDone id p) }
  else
    let s1 := s.dropTicket p.core p.st id p.ticket
    s1.resumeAll (s1.crewOf p.core)

/-- Retries a faulted put (R360). -/
def State.retryPut (s : State) (id : Nat) : State :=
  let q := s.queue id
  match q.faulted with
  | none => s
  | some p =>
    match s.sumpWrite id (q.slotAddr (((q.slotOf p.ticket).bind fun x => x.ring).getD 0)) p.words with
    | (s1, some f) => s1.reportSpill id p.ticket (p.base, p.serial) f
    | (s1, none) => ((s1.setQueue id { s1.queue id with faulted := none }).putDone id p).published id p.ticket .sump

/-- QRESUME (R360): the put first, then the refill. -/
def execQresume (cl n : Nat) (s : State) : Out :=
  let id := queueId (cl % 128) (n % 4)
  let q := s.queue id
  .next (s.queueWrite id (0x00120000 + 8 * id)
    (if !q.spillBlocked && !q.rblk then s.queueErr id 2
    else
      let s1 := (s.queueErr id 0).retryPut id
      if q.rblk then s1.fillQueue id q.slots.length else s1))

/-- Fills one held ticket with a VOID record (R361). The queue itself keeps the VOID of a sump slot that cannot be written, and the slot's
refill does not read it. -/
def State.voidTicket (s : State) (k id t : Nat) : State :=
  let q := s.queue id
  let s1 := match q.faulted with
    | some p => if p.core = k then (s.setQueue id { q with faulted := none }).resumeAll (s.crewOf k) else s
    | none => s
  if q.inSump t then
    match s1.sumpWrite id (q.slotAddr (((q.slotOf t).bind fun x => x.ring).getD 0)) (List.replicate 8 0) with
    | (s2, none) => s2.published id t .sump
    | (s2, some _) => s2.published id t .void
  else s1.published id t .void

/-- Fills held tickets with VOID records, in order. -/
def State.voidTickets (s : State) (k : Nat) : List (Nat × Nat) → State
  | [] => s
  | (t, id) :: r => (s.voidTicket k id t).voidTickets k r

/-- Tickets that a core's streams hold, in ascending ticket order. -/
def Core.heldTickets (c : Core) : List (Nat × Nat) :=
  sortByOrder (streamIds.flatMap fun st => (c.stream st).tickets.map fun p => (p.2, p.1))

/-- CONTEXT_KILL (R361): the tickets the context holds become VOID, and the context runs no further (log 18). -/
def execContextKill (k : Nat) (s : State) : Out :=
  let c := s.core k
  let s1 := s.voidTickets k c.heldTickets
  let quiet (x : Stream) : Stream := { x with tickets := [] }
  let c1 := s1.core k
  let s2 := s1.setCore k { c1 with strC := quiet c1.strC, strT := quiet c1.strT, strA := quiet c1.strA, strH := quiet c1.strH }
  .next (s2.abandonAll [k])

end Sys2Proof.Machine
end

