-- ==== Sys2Proof/Machine/Launch.lean ====
section
/-! DEFINITION. Launch records: their fields, the checks of arming, what device code and the host do to them, and the
chunks of RANGE work (R115, R116, R119, R121 to R127, R205, R206, R331, R337, R338, R340, R342 to R344, R349). -/

namespace Sys2Proof.Machine

/-! ### Fields of a record (R342) -/

/-- A word of a record. -/
def Record.word (r : Record) (n : Nat) : Word := r.words.toList.getD n 0

/-- A field of word 4. -/
def Record.f4 (r : Record) (lo n : Nat) : Nat := field (r.word 4) lo n

/-- MODE: RANGE. -/
def Record.isRange (r : Record) : Bool := r.f4 0 1 == 1

/-- Dimensions, NDIM + 1. -/
def Record.dims (r : Record) : Nat := r.f4 1 2 + 1

/-- SWEEP. -/
def Record.sweep (r : Record) : Nat := r.f4 3 2

/-- CREW. -/
def Record.crew (r : Record) : Nat := r.f4 5 2

/-- PLACE: table. -/
def Record.place (r : Record) : Bool := r.f4 7 1 == 1

/-- PDIM. -/
def Record.pdim (r : Record) : Nat := r.f4 8 2

/-- TILES. -/
def Record.tiles (r : Record) : Nat := r.f4 10 6

/-- LAMP. -/
def Record.lamp (r : Record) : Nat := r.f4 16 2

/-- ACCUM: scan. -/
def Record.scan (r : Record) : Bool := r.f4 18 1 == 1

/-- PRIO. -/
def Record.prio (r : Record) : Nat := r.f4 19 3

/-- NDEP. -/
def Record.ndep (r : Record) : Nat := r.f4 22 3

/-- NLINK. -/
def Record.nlink (r : Record) : Nat := r.f4 25 2

/-- NPRED. -/
def Record.npred (r : Record) : Nat := r.f4 27 3

/-- PANELS. -/
def Record.panelSet (r : Record) : BitVec 32 := BitVec.ofNat 32 (r.f4 32 32)

/-- Extent of a dimension (words 5 and 6). -/
def Record.ext (r : Record) (k : Nat) : Nat := field (r.word (5 + k / 2)) (32 * (k % 2)) 32

/-- lo, hi and g of a RANGE record. -/
def Record.lo (r : Record) : Nat := (r.word 5).toNat

/-- hi of a RANGE record. -/
def Record.hi (r : Record) : Nat := (r.word 6).toNat

/-- Grain of a RANGE record. -/
def Record.grain (r : Record) : Nat := (r.word 7).toNat

/-- Component c of dependence vector k (words 8 to 10). -/
def Record.dep (r : Record) (k c : Nat) : Int := signed 8 (field (r.word (8 + k / 2)) (32 * (k % 2) + 8 * c) 8)

/-- Record of linked vector k (words 11 and 12). -/
def Record.linkQ (r : Record) (k : Nat) : Nat := field (r.word (11 + k)) 0 12

/-- Offset component c of linked vector k. -/
def Record.linkO (r : Record) (k c : Nat) : Int := signed 8 (field (r.word (11 + k)) (12 + 8 * c) 8)

/-- Mirror bit c of linked vector k. -/
def Record.linkM (r : Record) (k c : Nat) : Bool := bitAt (r.word (11 + k)) (44 + c)

/-- Predecessor k (word 13). -/
def Record.pred (r : Record) (k : Nat) : Nat := field (r.word 13) (16 * k) 12

/-- Entry block of a stream; 0 is null. -/
def Record.entry (r : Record) (st : StreamId) : Nat := field (r.word st.num) 0 57

/-- Address of the layout table. -/
def Record.ltab (r : Record) : Nat := field (r.word 15) 0 57

/-- Layout count. -/
def Record.lcnt (r : Record) : Nat := field (r.word 16) 0 9

/-- Number of the statistics layout. -/
def Record.statLayout (r : Record) : Nat := field (r.word 16) 9 8

/-- Argument word n of 8. -/
def Record.arg (r : Record) (n : Nat) : Word := r.word (24 + n)

/-- Lines of a FRONT record (R117). -/
def Record.lines (r : Record) : Nat :=
  (List.range r.dims).foldl (fun n k => if k = r.sweep then n else n * r.ext k) 1

/-- A record with a word replaced. -/
def Record.setWord (r : Record) (n : Nat) (v : Word) : Record :=
  if h : n < 32 then { r with words := r.words.set n v h } else r

/-- State code of R126. -/
def RecState.code (x : RecState) : Nat :=
  match x with
  | .free => 0
  | .built => 1
  | .armed => 2
  | .waiting => 3
  | .active => 4
  | .done => 5
  | .faulted => 6

/-- The record is ARMED, WAITING or ACTIVE. -/
def RecState.live (x : RecState) : Bool :=
  match x with
  | .armed | .waiting | .active => true
  | .free | .built | .done | .faulted => false

/-! ### Slices (R125, R331) -/

/-- The record lies in the slice of a formed partition. -/
def Pcb.holds (b : Pcb) (r : Nat) : Bool := b.formed && decide (b.poolBase ≤ r ∧ r < b.poolBase + b.poolCnt)

/-- The partition whose slice holds a record. -/
def State.sliceOwner (s : State) (r : Nat) : Option Nat := (s.pcbs.find? fun p => p.2.holds r).map fun p => p.1

/-! ### Arming (R342 to R344) -/

/-- Words 0 to 3. -/
def Record.checkEntry (r : Record) (n : Nat) : Bool := decide ((r.word n).toNat / 2 ^ 57 = 0 ∧ (r.word n).toNat % 4 = 0)

/-- Word 4; PDIM of a FRONT record has no bound (log 83). -/
def Record.check4 (r : Record) : Bool :=
  r.f4 30 2 == 0 && r.crew != 3 && r.lamp != 3 && decide (8 ≤ r.tiles ∧ r.tiles ≤ 32) && decide (r.ndep ≤ 6) &&
    decide (r.nlink ≤ 2) && decide (r.npred ≤ 4) &&
    (if r.isRange then r.dims == 1 && r.sweep == 0 && r.pdim == 0 && r.ndep == 0 && r.nlink == 0
     else decide (r.sweep < r.dims))

/-- An extent: at least 1 in a dimension of the launch, zero beyond (R115, R342). -/
def Record.checkExt (r : Record) (k : Nat) : Bool :=
  if k < r.dims then decide (1 ≤ r.ext k) && (k != r.sweep || decide (r.ext k ≤ 2 ^ 24 - 1)) else r.ext k == 0

/-- Words 5 to 7; the product of the other extents is tested with the last word that holds one (R115, R121). -/
def Record.checkSpace (r : Record) (n : Nat) : Bool :=
  if r.isRange then
    match n with
    | 5 => decide (r.lo < 2 ^ 62)
    | 6 => decide (r.lo < r.hi ∧ r.hi < 2 ^ 62)
    | _ => decide (1 ≤ r.grain ∧ r.grain ≤ 2 ^ 32)
  else
    match n with
    | 5 => r.checkExt 0 && r.checkExt 1 && (decide (2 < r.dims) || decide (r.lines ≤ 4096))
    | 6 => r.checkExt 2 && r.checkExt 3 && decide (r.lines ≤ 4096)
    | _ => r.word 7 == 0

/-- A declared dependence vector (R116). -/
def Record.checkVector (r : Record) (k : Nat) : Bool :=
  let d := (List.range 4).map (r.dep k)
  let others := (List.range r.dims).filter fun c => c != r.sweep
  (d.drop r.dims).all (· == 0) && d.any (· != 0) && decide (0 ≤ r.dep k r.sweep) &&
    (r.dep k r.sweep != 0 ||
      match others.find? fun c => r.dep k c != 0 with
      | some c => decide (0 < r.dep k c)
      | none => true)

/-- Words 8 to 10: two vectors each; an unused slot is zero. -/
def Record.checkDeps (r : Record) (n : Nat) : Bool :=
  [2 * (n - 8), 2 * (n - 8) + 1].all fun k =>
    if k < r.ndep then r.checkVector k else field (r.word n) (32 * (k % 2)) 32 == 0

/-- Words 11 and 12 (R119). -/
def State.checkLink (s : State) (part : Nat) (r : Record) (k : Nat) : Bool :=
  if k < r.nlink then
    let q := s.record (r.linkQ k)
    (r.word (11 + k)).toNat / 2 ^ 48 == 0 && (s.pcb part).holds (r.linkQ k) && !q.isRange && q.dims == r.dims &&
      q.state != .free
  else r.word (11 + k) == 0

/-- Word 13 (R344). -/
def State.checkPreds (s : State) (part n : Nat) (r : Record) : Bool :=
  (List.range 4).all fun k =>
    if k < r.npred then
      field (r.word 13) (16 * k + 12) 4 == 0 && r.pred k != n && (s.pcb part).holds (r.pred k)
    else field (r.word 13) (16 * k) 16 == 0

/-- A core the placement table may name for a crew kind (R343). -/
def Pcb.checkPlace (b : Pcb) (crew e : Nat) : Bool :=
  decide (e / 2048 = 0) && b.clusters.getLsbD (e / 16) &&
    (match crew with
    | 0 => true
    | 1 => e % 2 == 0
    | _ => e % 16 == 0)

/-- Splits bytes into little-endian words. -/
def wordsOf (bs : List Byte) : Nat → List Nat
  | 0 => []
  | n + 1 => leNat (bs.take 8) :: wordsOf (bs.drop 8) n

/-- Word 14: the placement table as it stands, or nothing where the check fails (R343). -/
def State.readPlaces (s : State) (part : Nat) (r : Record) : State × Option (List Nat) :=
  let b := s.pcb part
  if !r.place then (s, if r.word 14 = 0 then some [] else none)
  else if (r.word 14).toNat / 2 ^ 57 ≠ 0 ∨ (r.word 14).toNat % 64 ≠ 0 then (s, none)
  else
    let n := if r.isRange then 256 else min 255 (r.ext r.pdim - 1) + 1
    match s.readVirtual b.firstCluster part (r.word 14).toNat (8 * n) with
    | (s1, .error _) => (s1, none)
    | (s1, .ok bs) =>
      let l := wordsOf bs n
      (s1, if l.all (b.checkPlace r.crew) then some l else none)

/-- A layout table entry as 512 bits. -/
def entryOf (bs : List Byte) : BitVec 512 := BitVec.ofNat 512 (leNat bs)

/-- Words 15 and 16: the base of the statistics layout, or the word that fails (R337, R338). -/
def State.checkStats (s : State) (part : Nat) (r : Record) : State × Except Nat Nat :=
  let b := s.pcb part
  let last := (r.word 16).toNat / 2 ^ 17 == 0 && decide (1 ≤ r.lcnt ∧ r.lcnt ≤ 256) && decide (r.statLayout < r.lcnt)
  if (r.word 15).toNat / 2 ^ 57 ≠ 0 ∨ (r.word 15).toNat % 64 ≠ 0 then (s, .error 15)
  else if r.lcnt ≤ r.statLayout then (s, .error 16)
  else
    match s.readVirtual b.firstCluster part (r.ltab + 64 * r.statLayout) 64 with
    | (s1, .error _) => (s1, .error 15)
    | (s1, .ok bs) =>
      let l := parseLayout r.statLayout (entryOf bs)
      (s1, if last && l.space == 4 && l.base % 64 == 0 && l.wr then .ok l.base else .error 16)

/-- The first word, in ascending order, that fails the checks of arming; else the placement snapshot and
the base of the statistics layout (R344). -/
def State.checkArm (s : State) (part n : Nat) : State × Except Nat (List Nat × Nat) :=
  let r := s.record n
  let early := (List.range 14).find? fun k =>
    !(if k < 4 then r.checkEntry k
      else if k = 4 then r.check4
      else if k < 8 then r.checkSpace k
      else if k < 11 then r.checkDeps k
      else if k < 13 then s.checkLink part r (k - 11)
      else s.checkPreds part n r)
  match early with
  | some k => (s, .error k)
  | none =>
    match s.readPlaces part r with
    | (s1, none) => (s1, .error 14)
    | (s1, some places) =>
      match s1.checkStats part r with
      | (s2, .error k) => (s2, .error k)
      | (s2, .ok base) =>
        if (r.word 17).toNat / 2 ^ 32 ≠ 0 then (s2, .error 17)
        else
          match (List.range 6).find? fun k => r.word (18 + k) != 0 with
          | some k => (s2, .error (18 + k))
          | none => (s2, .ok (places, base))

/-- A record armed afresh: its face cleared, its range restored, serials from 1, statistics zero (R127, R338,
R351). The crew it used last stays (R354). -/
def Record.arm (r : Record) (part : Nat) (got : List Nat × Nat) : Record :=
  { r with
    state := .armed, nser := 1, waitr := 0, slot := 0, readyAt := 0, heights := [], points := [], ptab := got.1, statBase := got.2,
    stats := [], returned := [], nextOrd := 0, taken := false, part := part, arming := r.arming + 1 }

/-- Arms a record that has passed its checks. -/
def State.arm (s : State) (part n : Nat) (got : List Nat × Nat) : State := s.setRecord n ((s.record n).arm part got)

/-! ### Device requests (R206, R344) -/

/-- %trapinfo of cause 0x12, reasons 1 to 5 (R344). -/
def launchInfo (n reason w : Nat) : Word := word (n % 4096 + 2 ^ 16 * reason + 2 ^ 24 * w + 2 ^ 56 * reason)

/-- Raises cause 0x12. -/
def State.launchTrap (s : State) (k : Nat) (st : StreamId) (n reason w : Nat) : State :=
  s.raise k st 0x12 (launchInfo n reason w)

/-- A request on the record a register names, in the slice of the core's partition (R125, R206). -/
def onRecord (reads : List Reg) (a : Reg) (f : Nat → StreamId → Nat → State → State) (s : State) : Out :=
  onTurn s fun k st =>
    if s.anyPending k st (a :: reads) then s.waitOn k st .register
    else
      let v := (s.reg k st a).toNat
      if v / 4096 ≠ 0 ∨ (s.pcb (s.core k).part).holds v = false then s.launchTrap k st v 2 0 else f k st v s

/-- The record is BUILT or DONE (R127). -/
def Record.editable (r : Record) : Bool := r.state == .built || r.state == .done

/-- LPATCH (R127, R206). -/
def execLpatch (d a : Reg) (f : BitVec 11) (s : State) : Out :=
  onRecord [d] a (fun k st n s =>
    let r := s.record n
    if !r.editable then s.launchTrap k st n 3 0
    else if 32 ≤ f.toNat ∨ f.toNat = 17 ∨ bitAt (r.word 17) f.toNat = false then s.launchTrap k st n 5 0
    else ((s.setRecord n (r.setWord f.toNat (s.reg k st d))).commit k).retire k st 2) s

/-- LARM (R127, R206, R344). -/
def execLarm (a : Reg) (s : State) : Out :=
  onRecord [] a (fun k st n s =>
    if !(s.record n).editable then s.launchTrap k st n 3 0
    else
      match s.checkArm (s.core k).part n with
      | (s1, .error w) => s1.launchTrap k st n 4 w
      | (s1, .ok got) => ((s1.arm (s.core k).part n got).commit k).retire k st 2) s

/-- LQUERY (R206). -/
def execLquery (d a : Reg) (s : State) : Out :=
  onRecord [d] a (fun k st n s => (s.setReg k st d (word (s.record n).state.code)).retire k st 2) s

/-! ### RANGE work (R121 to R124, R355, R356) -/

/-- The remainder of a point. -/
def Fired.rest (p : Fired) : Nat := p.stop - p.cur

/-- A point takes its next chunk from its remainder. -/
def Fired.chunk (p : Fired) (g : Nat) : Fired × Nat × Nat :=
  ({ p with cur := min (p.cur + g) p.stop }, p.cur, min (p.cur + g) p.stop)

/-- A point's last interval ends where a split leaves it (R356). -/
def shorten (l : List (Nat × Nat)) (stop : Nat) : List (Nat × Nat) :=
  match l with
  | [] => []
  | [(a, _)] => [(a, stop)]
  | x :: r => x :: shorten r stop

/-- The interval with the lowest start. -/
def lowest : List (Nat × Nat) → Option (Nat × Nat)
  | [] => none
  | x :: r =>
    match lowest r with
    | some y => if y.1 < x.1 then some y else some x
    | none => some x

/-- The point with the largest remainder; a tie goes to the lowest first core (R122). -/
def largest : List Fired → Option Fired
  | [] => none
  | x :: r =>
    match largest r with
    | some y => if x.rest < y.rest ∨ (x.rest = y.rest ∧ y.crew.getD 0 < x.crew.getD 0) then some y else some x
    | none => some x

/-- Replaces a point by its serial. -/
def replacePoint (l : List Fired) (p : Fired) : List Fired := l.map fun x => if x.serial = p.serial then p else x

/-- RNEXT of a point: the record after it and the chunk, none where work is exhausted (R122, R356). -/
def Record.rnext (r : Record) (c : Fired) : Record × Option (Nat × Nat) :=
  let g := r.grain
  let got (r : Record) (c : Fired) : Record × Option (Nat × Nat) :=
    let x := c.chunk g
    ({ r with points := replacePoint r.points x.1 }, some x.2)
  if c.exhausted then (r, none)
  else if c.cur < c.stop then got r c
  else
    match if c.nint < 32 then lowest r.returned else none with
    | some (a, b) =>
      got { r with returned := r.returned.erase (a, b) }
        { c with cur := a, stop := b, nint := c.nint + 1, intervals := c.intervals ++ [(a, b)] }
    | none =>
      match largest (r.points.filter fun p => p.crew.isSome) with
      | some v =>
        if c.nint < 32 ∧ 2 * g ≤ v.rest ∧ g ≠ 0 then
          let mid := v.cur + g * ((v.rest + 2 * g - 1) / (2 * g))
          got { r with points := replacePoint r.points { v with stop := mid, intervals := shorten v.intervals mid } }
            { c with cur := mid, stop := v.stop, nint := c.nint + 1, intervals := c.intervals ++ [(mid, v.stop)] }
        else ({ r with points := replacePoint r.points { c with exhausted := true, cur := c.stop } }, none)
      | none => ({ r with points := replacePoint r.points { c with exhausted := true, cur := c.stop } }, none)

/-- RNEXT (R122, R205). -/
def execRnext (d : Reg) (s : State) : Out :=
  onTurn s fun k st =>
    if s.anyPending k st [d, d + 1] then s.waitOn k st .register
    else
      match (s.core k).point with
      | none => s.retire k st 2
      | some p =>
        if !p.range then s.launchTrap k st p.recNo 1 0
        else
          let r := s.record p.recNo
          match if s.current p then r.points.find? (fun f => f.serial == p.serial) else none with
          | none => (s.setRegs k st d.toNat [-1, -1]).retire k st 2
          | some c =>
            match r.rnext c with
            | (r1, some (a, b)) => ((s.setRecord p.recNo r1).setRegs k st d.toNat [word a, word b]).retire k st 2
            | (r1, none) => ((s.setRecord p.recNo r1).setRegs k st d.toNat [-1, -1]).retire k st 2

/-! ### Host commands on records (R331, R340, R349) -/

/-- Leaves the result of a launch command in LSTAT, with the record's state. -/
def State.launchResult (s : State) (part n e : Nat) : State :=
  let b := s.pcb part
  s.setPcb part { b with lrec := n, lerr := e, lstate := (s.record n).state.code }

/-- A launch command of a partition window: error 1, then error 4 outside an SPDM session, then the command (R340, log 95). -/
def State.launchCommand (s : State) (part n : Nat) (session : Bool) (f : State → State × Nat) : State :=
  if s.fwstat ≠ 0 then s
  else if (s.pcb part).holds n = false then s.launchResult part n 1
  else if (s.pcb part).isSealed && !session then s.launchResult part n 4
  else
    let x := f s
    x.1.launchResult part n x.2

/-- BUILD: FREE to BUILT. -/
def State.hostBuild (part n : Nat) (s : State) : State × Nat :=
  let r := s.record n
  if r.state = .free then (s.setRecord n { r with state := .built, part := part }, 0) else (s, 2)

/-- PATCH: the mask does not apply, and word 17 is refused. -/
def State.hostPatch (n w : Nat) (v : Word) (s : State) : State × Nat :=
  let r := s.record n
  if !r.editable then (s, 2) else if w = 17 then (s, 3) else (s.setRecord n (r.setWord w v), 0)

/-- ARM: as LARM. -/
def State.hostArm (part n : Nat) (s : State) : State × Nat :=
  if !(s.record n).editable then (s, 2)
  else
    match s.checkArm part n with
    | (s1, .error _) => (s1, 3)
    | (s1, .ok got) => (s1.arm part n got, 0)

/-- FREE. -/
def State.hostFree (n : Nat) (s : State) : State × Nat :=
  let r := s.record n
  if r.editable || r.state == .faulted then (s.setRecord n { r with state := .free }, 0) else (s, 2)

/-- BUILD (R340): LCMD keeps the WORD it holds, and a write that brings another is REGISTER_WRITE (R331). ARM, QUERY and FREE
alike. -/
def execBuild (part n : Nat) (s : State) : Out := .next (s.launchCommand part n false (State.hostBuild part n))

/-- PATCH (R331, R340): writes LDATA; LCMD keeps WORD. -/
def execPatch (part n w : Nat) (s : State) : Out :=
  .next ((s.setPcb part { s.pcb part with lword := w % 32 }).launchCommand part n false (State.hostPatch n (w % 32) (s.pcb part).ldata))

/-- ARM (R340). -/
def execArm (part n : Nat) (s : State) : Out := .next (s.launchCommand part n false (State.hostArm part n))

/-- QUERY (R340). -/
def execQuery (part n : Nat) (s : State) : Out := .next (s.launchCommand part n false fun s => (s, 0))

/-- FREE (R340). -/
def execFree (part n : Nat) (s : State) : Out := .next (s.launchCommand part n false (State.hostFree n))

/-- ABORT (R349, R362), with RECSEL naming its record: error 4 for a sealed partition's record, error 2 in another state. -/
def execAbort (n : Nat) (s0 : State) : Out :=
  let s := { s0 with recsel := n % 4096 }
  let sealed' := match s.sliceOwner n with
    | some p => (s.pcb p).isSealed
    | none => false
  .next
    (if s0.fwstat ≠ 0 then s0
    else if sealed' then { s with reccmdErr := 4 }
    else if (s.record n).state.live then { s.faultRecord n 4 0 0 0 with reccmdErr := 0 }
    else { s with reccmdErr := 2 })

/-- POOL_WRITE (R331, R398): offset into the launch pool. -/
def execPoolWrite (offset : Nat) (value : Word) (s : State) : Out :=
  let n := offset / 256 % 4096
  let r := s.record n
  let addr := 0x00400000 + offset % 2 ^ 20
  let owner := s.sliceOwner n
  let sealed' := match owner with
    | some p => (s.pcb p).isSealed
    | none => false
  .next
    (if s.fwstat ≠ 0 then s
    else if sealed' then s.logHost 5 (owner.getD 0) addr false
    else if r.state = .free then s.setRecord n (r.setWord (offset / 8 % 32) value)
    else s.logHost 6 (owner.getD 0) addr false)

end Sys2Proof.Machine
end

