-- ==== Sys2Proof/Machine/Headframe.lean ====
section
/-! DEFINITION. The headframe: firing, state resolution, dispatch, the start and the end of points and of records (R69,
R75, R112 to R124, R128, R158, R159, R337, R338, R343 to R356, R363). -/

namespace Sys2Proof.Machine

/-! ### Points, lines and faces (R117, R118) -/

/-- Line of a point's coordinates (R117): the lowest non-sweep dimension is least significant. -/
def Record.lineOf (r : Record) (x : List Int) : Nat :=
  ((List.range r.dims).foldl (fun (a : Nat × Nat) k =>
    if k = r.sweep then a else (a.1 + (x.getD k 0).toNat * a.2, a.2 * r.ext k)) (0, 1)).1

/-- Coordinates of the point of a line at a sweep coordinate. -/
def Record.coordsOf (r : Record) (line h : Nat) : List Int :=
  ((List.range r.dims).foldl (fun (a : List Int × Nat) k =>
    if k = r.sweep then (a.1 ++ [(h : Int)], a.2)
    else (a.1 ++ [((a.2 % r.ext k : Nat) : Int)], a.2 / r.ext k)) ([], line)).1

/-- The coordinates lie in the record's space. -/
def Record.inSpace (r : Record) (x : List Int) : Bool :=
  (List.range r.dims).all fun k => decide (0 ≤ x.getD k 0 ∧ x.getD k 0 < (r.ext k : Int))

/-- The point lies behind the face (R117). -/
def Record.behind (r : Record) (x : List Int) : Bool :=
  decide (x.getD r.sweep 0 < ((tget 0 r.heights (r.lineOf x) : Nat) : Int))

/-- The point lies behind the face of a linked record as its state makes it read (R119). R119 has no row for a Q that is FREE by
then; it is read as a face with every height 0 (log 68). -/
def Record.behindLinked (q : Record) (x : List Int) : Bool :=
  match q.state with
  | .done => true
  | .active => q.behind x
  | .free | .built | .armed | .waiting | .faulted => false

/-- The dependence vectors of a record, the sweep unit vector included (R116). -/
def Record.vectors (r : Record) : List (List Int) :=
  ((List.range r.dims).map fun k => if k = r.sweep then 1 else 0) ::
    (List.range r.ndep).map fun k => (List.range r.dims).map (r.dep k)

/-- Coordinates less an offset. -/
def minus (x d : List Int) : List Int := List.zipWith (· - ·) x d

/-- The coordinates of a linked record that a linked vector tests (R118). -/
def Record.mirrored (r q : Record) (k : Nat) (x : List Int) : List Int :=
  (List.range q.dims).map fun c =>
    (if r.linkM k c then (q.ext c : Int) - 1 - x.getD c 0 else x.getD c 0) - r.linkO k c

/-- The test of R118, for a point that has not fired. -/
def State.fireable (s : State) (r : Record) (x : List Int) : Bool :=
  (r.vectors.all fun d => !r.inSpace (minus x d) || r.behind (minus x d)) &&
    (List.range r.nlink).all fun k =>
      let q := s.record (r.linkQ k)
      let y := r.mirrored q k x
      !q.inSpace y || q.behindLinked y

/-! ### Completions and states (R117, R119, R128, R345 to R348) -/

/-- A point of a RANGE record that has ended keeps its remainder for later splits (R355). -/
def endRange (l : List Fired) (serial : Nat) : List Fired :=
  (l.map fun p => if p.serial = serial then { p with ended := true } else p).filter fun p => !p.ended || decide (p.cur < p.stop)

/-- A record with the completion of a point recorded (R117, R120, R348). -/
def Record.completed (r : Record) (serial : Nat) : Record :=
  if r.isRange then { r with points := endRange r.points serial }
  else
    match r.points.find? fun p => p.serial == serial with
    | none => r
    | some p =>
      let r1 := { r with points := r.points.filter fun q => q.serial != serial }
      if r.state = .active then { r1 with heights := tset 0 r1.heights p.line (p.coords.getD r.sweep 0 + 1) } else r1

/-- Records the completions that have arrived, in their order; those of an earlier arming change nothing (R348, log 82). -/
def State.recordCompletions (s : State) : List (Nat × Nat × Nat) → State
  | [] => { s with completions := [] }
  | (n, serial, arming) :: l =>
    (if (s.record n).arming = arming then s.setRecord n ((s.record n).completed serial) else s).recordCompletions l

/-- Face slots held (R346). -/
def State.heldSlots (s : State) : List Nat :=
  (s.records.filter fun p => p.2.state == .active && !p.2.isRange).map fun p => p.2.slot

/-- A record becomes ACTIVE with every height 0 (R346). -/
def State.activate (s : State) (n slot : Nat) : State :=
  s.setRecord n { s.record n with state := .active, waitr := 0, slot := slot, heights := [] }

/-- The live record n as its predecessors and links stand (R119, R128, R345, R346): one that is FAULTED makes it FAULTED in any
live state; else an ARMED or WAITING record moves on, a FRONT record still needing its face slot. -/
def State.resolveOne (s : State) (n : Nat) : State :=
  let r := s.record n
  let preds := (List.range r.npred).map fun k => (s.record (r.pred k)).state
  if !r.state.live then s
  else if preds.contains .faulted then s.faultRecord n 2 0 0 0
  else if (List.range r.nlink).any fun k => (s.record (r.linkQ k)).state == .faulted then s.faultRecord n 1 0 0 0
  else if r.state = .active then s
  else if preds.all (· == .done) then
    if r.isRange then s.activate n 0
    else if r.readyAt = 0 then (s.setRecord n { r with readyAt := s.order + 1 }).tick
    else s
  else s.setRecord n { r with state := .waiting, waitr := 1, readyAt := 0 }

/-- Resolves a list of records in order. -/
def State.resolveEach (s : State) : List Nat → State
  | [] => s
  | n :: l => (s.resolveOne n).resolveEach l

/-- Gives face slots to ready FRONT records, the one longest ready first (R346). -/
def State.grantSlots (s : State) : List (Nat × Nat) → State
  | [] => s
  | (_, n) :: l =>
    (match (List.range 64).find? fun i => !s.heldSlots.contains i with
    | some i => s.activate n i
    | none => s.setRecord n { s.record n with state := .waiting, waitr := 2 }).grantSlots l

/-- FRONT records that wait only for a face slot, by the time they became ready. -/
def State.slotRequests (s : State) : List (Nat × Nat) :=
  sortByOrder ((s.records.filter fun p =>
    (p.2.state == .armed || p.2.state == .waiting) && !p.2.isRange && p.2.readyAt != 0).map fun p => (p.2.readyAt, p.1))

/-- State resolution of a round (R345, R346). -/
def State.resolve (s : State) : State :=
  let s1 := s.resolveEach (s.records.map fun p => p.1)
  s1.grantSlots s1.slotRequests

/-! ### Firing (R350, R351) -/

/-- A record's points stand saved: nothing of it fires before its restore (R351, R372, R382). -/
def State.savedRecord (s : State) (n : Nat) : Bool :=
  let p := (s.record n).part
  let b := s.pcb p
  b.saving || ((b.saved || b.restoring) &&
    match tfind s.saves p with
    | some v => v.records.any fun x => x.1 == n
    | none => false)

/-- A point that fires takes the record's next serial. -/
def Record.fire (r : Record) (coords : List Nat) (line order : Nat) : Record :=
  { r with
    nser := r.nser + 1,
    points := r.points ++ [⟨r.nser, coords, line, 0, order, none, false, false, 0, 0, 0, false, []⟩] }

/-- Fires the candidates of a list of lines that pass R118, while fewer than 256 points are in flight. -/
def State.fireLines (s : State) (n : Nat) : List Nat → State
  | [] => s
  | line :: l =>
    let r := s.record n
    let h := tget 0 r.heights line
    let x := r.coordsOf line h
    (if h < r.ext r.sweep ∧ r.points.length < 256 ∧ ¬ (r.points.any fun p => p.line == line) ∧ s.fireable r x then
      (s.setRecord n (r.fire (x.map Int.toNat) line s.order)).tick
    else s).fireLines n l

/-- A RANGE record can use another crew (R121, R355, R356). -/
def Record.wantsCrew (r : Record) : Bool :=
  !r.taken || !r.returned.isEmpty || r.points.any fun p => p.crew.isSome && decide (2 * r.grain ≤ p.rest)

/-- A RANGE record keeps one point ready while it can use another crew. -/
def State.fireRange (s : State) (n : Nat) : State :=
  let r := s.record n
  let ready := r.points.any fun p => p.crew.isNone
  if r.wantsCrew then
    if ready then s else (s.setRecord n (r.fire [r.nextOrd] 0 s.order)).tick
  else s.setRecord n { r with points := r.points.filter fun p => p.crew.isSome }

/-- Fires what a list of records may fire, in order. -/
def State.fireEach (s : State) : List Nat → State
  | [] => s
  | n :: l =>
    let r := s.record n
    (if r.state ≠ .active ∨ s.savedRecord n then s
    else if r.isRange then s.fireRange n
    else s.fireLines n (List.range r.lines)).fireEach l

/-! ### Dispatch (R352 to R354) -/

/-- Cores of a crew kind. -/
def crewSize (kind : Nat) : Nat :=
  match kind with
  | 0 => 1
  | 1 => 2
  | _ => 16

/-- A core is assigned to a fired point that has not started. -/
def State.assigned (s : State) (k : Nat) : Bool :=
  s.records.any fun p => p.2.points.any fun f => !f.started &&
    match f.crew with
    | some c => (crewCores p.2.crew c).contains k
    | none => false

/-- A core may take part in a new crew: it runs no point, is not halted and not suspended, and its stack has power (R352, R387). -/
def State.coreFree (s : State) (k : Nat) : Bool :=
  let c := s.core k
  c.point.isNone && !c.halted && !c.suspended && !s.assigned k && !s.cut.getLsbD (k / 512)

/-- A shaft may take a point of a lamp class (R353, R406). -/
def State.lampEligible (s : State) (lamp n : Nat) : Bool :=
  match lamp with
  | 0 => true
  | 2 => !(s.shaft n).hot && s.sprintPossible n
  | _ => !(s.shaft n).hot

/-- Cores named by RESUME entries of a restore in progress (R382). -/
def State.restoringCore (s : State) (part k : Nat) : Bool :=
  (s.pcb part).restoring &&
    match tfind s.saves part with
    | some v => v.images.any fun i => i.core == k
    | none => false

/-- A crew is eligible for a point of a record, placement apart (R353). -/
def State.eligible (s : State) (r : Record) (first : Nat) : Bool :=
  (s.pcb r.part).member (clusterOf first) &&
    (crewCores r.crew first).all fun k =>
      s.coreFree k && s.lampEligible r.lamp (shaftOf k) && !s.restoringCore r.part k

/-- The crew the placement table names for a point (R343). -/
def Record.tableCrew (r : Record) (p : Fired) : Option Nat :=
  r.ptab[(if r.isRange then r.nextOrd else p.coords.getD r.pdim 0) % 256]?

/-- Temperature of the hottest shaft of a cluster. -/
def State.clusterTemp (s : State) (cl : Nat) : Nat :=
  ((List.range 8).map fun i => (s.shaft (8 * cl + i)).temp).foldl max 0

/-- Order in which round-robin placement prefers a crew (R354). -/
def State.placeKey (s : State) (r : Record) (first : Nat) : Nat :=
  let wrapped := match r.lastCrew with
    | some l => bit (decide (first ≤ l))
    | none => 0
  let hot := (crewCores r.crew first).any fun k => decide (95 ≤ (s.shaft (shaftOf k)).temp)
  let heat := if r.lamp ≠ 0 ∨ hot then 0 else 1 + s.clusterTemp (clusterOf first) / 5
  4096 * (2 * heat + wrapped) + first

/-- Crews of a partition for a record, first cores in ascending order. -/
def State.crews (s : State) (r : Record) : List Nat :=
  (((List.range 128).filter fun c => (s.pcb r.part).member c).flatMap fun c =>
    (List.range (16 / crewSize r.crew)).map fun i => 16 * c + crewSize r.crew * i)

/-- The smallest element by a key. -/
def minBy (key : Nat → Nat) : List Nat → Option Nat
  | [] => none
  | x :: l =>
    match minBy key l with
    | some y => if key x ≤ key y then some x else some y
    | none => some x

/-- The crew that dispatch chooses for a ready point (R353, R354). -/
def State.crewFor (s : State) (r : Record) (p : Fired) : Option Nat :=
  if r.place then
    match r.tableCrew p with
    | some c => if s.eligible r c then some c else none
    | none => none
  else minBy (s.placeKey r) ((s.crews r).filter (s.eligible r))

/-- Dispatch is open to a partition: no save runs and no report of it waits (R363, R372). -/
def State.dispatchOpen (s : State) (part : Nat) : Bool :=
  !(s.pcb part).saving && !s.reports.any fun x => x.1 == part

/-- Ready points with the crew each would take: record, point, crew. -/
def State.readyPoints (s : State) : List (Nat × Fired × Nat) :=
  s.records.flatMap fun x =>
    if x.2.state = .active ∧ s.dispatchOpen x.2.part then
      x.2.points.filterMap fun p =>
        if p.crew.isSome then none else (s.crewFor x.2 p).map fun c => (x.1, p, c)
    else []

/-- Effective priority, age and firing order as one number, the highest first (R352). -/
def State.rank (s : State) (n : Nat) (p : Fired) : Nat × Nat × Nat :=
  (min 7 ((s.record n).prio + p.age / 64), p.age, p.order)

/-- One ready point goes before another (R352). -/
def beats (a b : Nat × Nat × Nat) : Bool :=
  decide (b.1 < a.1) || (a.1 == b.1 && (decide (b.2.1 < a.2.1) || (a.2.1 == b.2.1 && decide (a.2.2 < b.2.2))))

/-- The ready point that dispatch takes next. -/
def State.best (s : State) : List (Nat × Fired × Nat) → Option (Nat × Fired × Nat)
  | [] => none
  | x :: l =>
    match s.best l with
    | some y => if beats (s.rank y.1 y.2.1) (s.rank x.1 x.2.1) then some y else some x
    | none => some x

/-- A point takes its crew (R121, R352): the first crew of a RANGE record takes the whole range. -/
def Record.dispatch (r : Record) (p : Fired) (first : Nat) : Record :=
  let p1 := { p with crew := some first }
  if r.isRange then
    let p2 := { p1 with coords := [r.nextOrd] }
    let p3 := if r.taken then p2 else { p2 with cur := r.lo, stop := r.hi, nint := 1, intervals := [(r.lo, r.hi)] }
    { r with points := replacePoint r.points p3, lastCrew := some first, nextOrd := r.nextOrd + 1, taken := true }
  else { r with points := replacePoint r.points p1, lastCrew := some first }

/-- Dispatches ready points until none has a crew; the crews taken: partition, kind, first core. -/
def State.dispatchLoop (s : State) (taken : List (Nat × Nat × Nat)) : Nat → State × List (Nat × Nat × Nat)
  | 0 => (s, taken)
  | fuel + 1 =>
    match s.best s.readyPoints with
    | none => (s, taken)
    | some (n, p, first) =>
      let r := s.record n
      let s1 := (s.setRecord n (r.dispatch p first)).later (.pointStart n p.serial)
      s1.dispatchLoop ((r.part, r.crew, first) :: taken) fuel

/-- The record's points that were ready while a crew they accept went to another rise in age (R352). -/
def Record.aged (r : Record) (taken : List (Nat × Nat × Nat)) : Record :=
  let accepts (p : Fired) : Bool := taken.any fun t =>
    t.1 == r.part && t.2.1 == r.crew && (!r.place || r.tableCrew p == some t.2.2)
  { r with points := r.points.map fun p => if p.crew.isNone && accepts p then { p with age := p.age + 1 } else p }

/-- The dispatch step (R352). -/
def State.dispatch (s : State) : State :=
  if s.dispen = false then s
  else
    let x := s.dispatchLoop [] ((s.records.map fun p => p.2.points.length).foldl (· + ·) 0)
    if x.2.isEmpty then x.1
    else { x.1 with records := x.1.records.map fun p => (p.1, if p.2.state = .active then p.2.aged x.2 else p.2) }

/-- Writes the reports that wait, while there is room (R363). -/
def State.flushReports (s : State) : Nat → State
  | 0 => s
  | fuel + 1 =>
    match s.reports with
    | [] => s
    | (part, r) :: l =>
      if (s.fqTail + 2 ^ 32 - s.fqHead) % 2 ^ 32 < 2 ^ s.fqLog then
        let s1 := ({ s with reports := [] }).report part r
        ({ s1 with reports := l }).flushReports fuel
      else s

/-- HEADFRAME_ROUND (R345): completions, state resolution, fire tests, dispatch. Requests are served as they
arrive. What GET_MEASUREMENTS reports as it stood before this round ends with it (R402). -/
def execHeadframeRound (s : State) : Out :=
  let s1 := (s.recordCompletions s.completions).resolve
  let s2 := (s1.fireEach (s1.records.map fun p => p.1)).dispatch
  .next { s2.flushReports s2.reports.length with measured := [] }

/-! ### The start of a point (R56, R69, R75, R112, R113, R158, R337) -/

/-- Splits bytes into layout entries. -/
def entriesOf (bs : List Byte) : Nat → List (BitVec 512)
  | 0 => []
  | n + 1 => entryOf (bs.take 64) :: entriesOf (bs.drop 64) n

/-- The layout snapshot of a record, read as space 4; a table that cannot be read gives none (log 19). -/
def State.snapshot (s : State) (r : Record) : State × List (BitVec 512) :=
  match s.readVirtual (s.pcb r.part).firstCluster r.part r.ltab (64 * r.lcnt) with
  | (s1, .ok bs) => (s1, entriesOf bs r.lcnt)
  | (s1, .error _) => (s1, [])

/-- Argument registers at a point start (R56). -/
def Record.argRegs (r : Record) : Vector Word 32 :=
  #v[0, r.arg 0, r.arg 1, r.arg 2, r.arg 3, r.arg 4, r.arg 5, r.arg 6, r.arg 7, 0, 0, 0, 0, 0, 0, 0, 0, 0, 0, 0, 0,
    0, 0, 0, 0, 0, 0, 0, 0, 0, 0, 0]

/-- A stream at a point start (R75, R114): a null entry behaves as PEND. -/
def Record.startStream (r : Record) (st : StreamId) : Stream :=
  { Stream.reset with regs := r.argRegs, pos := Pos.enter (r.entry st), ended := r.entry st == 0 }

/-- A core at a point start (R75): what belongs to the partition, the core's privileged registers and its panels
stay. -/
def Core.start (c : Core) (r : Record) (p : Point) : Core :=
  { c with
    point := some p, priv := false, raised := none, stop := false, committed := false, halting := false,
    trapcause := 0, trapinfo := 0, trappc := 0, trapseq := 0,
    tround := 0, tsrb := 16, tclamp := 0x7F7FFFFF,
    strC := r.startStream .c, strT := r.startStream .t, strA := r.startStream .a, strH := r.startStream .h,
    events := 0, gen := zeroSubstitute, tiles := [], m0 := Accum.reset, m1 := Accum.reset, vec := none, mat := [],
    ap := apReset, arr := [], copies := [], ordinal := 0, xsw := none, lampWant := false }

/-- The carve-out of a point start (R146): a changed count empties the cache and resizes scratch. -/
def State.startCount (s : State) (k n : Nat) : State := if (s.core k).ntiles = n then s else s.setCount k n

/-- The point acquires the point-bound writes it follows (R158). -/
def State.startCore (s : State) (r : Record) (p : Point) (k : Nat) : State :=
  let s1 := (s.startCount k r.tiles).acquire k
  s1.setCore k ((s1.core k).start r { p with rank := k - p.base })

/-- Starts a point on each core of its crew. -/
def State.startCores (s : State) (r : Record) (p : Point) : List Nat → State
  | [] => s
  | k :: l => (s.startCore r p k).startCores r p l

/-- Clears the windows of the shafts of some cores (R69). -/
def State.clearWindows (s : State) : List Nat → State
  | [] => s
  | k :: l =>
    (s.setShaft (shaftOf k) { s.shaft (shaftOf k) with win := Vector.replicate 8 0 }).clearWindows l

/-- A dispatched point may start: the clocks run (R404), and no core's carve-out has to wait for the accesses of an earlier change
(R146). -/
def State.canStart (s : State) (r : Record) (first : Nat) : Bool :=
  (crewCores r.crew first).all fun k => (s.core k).point.isNone && s.clocked k && ((s.core k).ntiles == r.tiles || !s.resizing k)

/-- A fired point of a record by its serial. -/
def Record.fired (r : Record) (serial : Nat) : Option Fired := r.points.find? fun p => p.serial == serial

/-- POINT_START (R113): all cores of the crew together. -/
def execPointStart (n serial : Nat) (s : State) : Out :=
  let r := s.record n
  match r.fired serial with
  | none => .next s
  | some f =>
    match f.crew with
    | none => .next s
    | some first =>
      if f.started ∨ s.canStart r first = false then .next s
      else
        let crew := crewCores r.crew first
        let x := s.snapshot r
        let p : Point := ⟨n, serial, r.crew, first, 0, f.coords, r.isRange, x.2, r.lamp, r.panelSet, r.scan, r.arming⟩
        let s1 := if r.crew = 0 then x.1 else x.1.clearWindows crew
        let s2 := s1.startCores r p crew
        .next (s2.setRecord n { s2.record n with points := replacePoint (s2.record n).points { f with started := true } })

/-! ### The end of a point and of a record (R114, R157, R159, R347) -/

/-- Every stream of the core has ended and everything it issued has completed; no trap is left to deliver. -/
def Core.finished (c : Core) : Bool :=
  streamIds.all (fun st => (c.stream st).ended && (c.stream st).accesses.isEmpty && (c.stream st).held.isNone) &&
    c.vec.isNone && c.xsw.isNone && c.mat.isEmpty && c.arr.isEmpty && c.copies.isEmpty && !c.priv && c.raised.isNone &&
    !c.halted && !c.stop && !c.suspended

/-- Releases what a core wrote bound to its point, and makes the core idle (R114, R157). -/
def State.endCore (s : State) (k : Nat) : State :=
  let s1 := s.release k 0
  let s2 := s1.setCore k { s1.core k with point := none }
  (s2.withdrawLamp k).loseLamp k

/-- Ends a point on each core of a crew. -/
def State.endCores (s : State) : List Nat → State
  | [] => s
  | k :: l => (s.endCore k).endCores l

/-- The crew of a running point: its cores run it. -/
def State.runsPoint (s : State) (n serial k : Nat) : Bool :=
  match (s.core k).point with
  | some p => p.recNo == n && p.serial == serial
  | none => false

/-- Every core of a crew runs the point and has finished it, its clock running. -/
def State.crewFinished (s : State) (n serial : Nat) (crew : List Nat) : Bool :=
  crew.all fun k => s.runsPoint n serial k && (s.core k).finished && s.clocked k

/-- The point as a crew that has finished it runs it. -/
def State.crewRunning (s : State) (n serial : Nat) : Option Point :=
  s.cores.findSome? fun x => x.2.point.filter fun p => p.recNo == n && p.serial == serial && s.crewFinished n serial (crewCores p.kind p.base)

/-- POINT_END (R114): its regions are released, its lamps pass, its completion goes to the headframe. -/
def execPointEnd (n serial : Nat) (s : State) : Out :=
  match s.crewRunning n serial with
  | none => .next s
  | some p =>
    let s1 := s.endCores (crewCores p.kind p.base)
    .next { s1 with completions := s1.completions ++ [(n, serial, p.arming)] }

/-- Everything of the record is done (R124, R347). -/
def Record.complete (r : Record) : Bool :=
  r.state == .active && r.points.isEmpty &&
    (if r.isRange then r.taken && r.returned.isEmpty
     else (List.range r.lines).all fun l => tget 0 r.heights l == r.ext r.sweep)

/-- The 16 bytes of a statistics entry (R338). -/
def Stat.bytes (e : Stat) : List Byte :=
  leBytes 8 (bit e.ov + 2 * bit e.nv + 4 * bit e.sat + 8 * bit e.fz + 2 ^ 32 * e.merges) ++ leBytes 8 e.drops

/-- The statistics table of a record as bytes from an entry on. -/
def statBytes (t : Tbl Stat) : Nat → Nat → List Byte
  | _, 0 => []
  | i, n + 1 => (tget ⟨false, false, false, false, 0, 0⟩ t i).bytes ++ statBytes t (i + 1) n

/-- Writes bytes page by page of 64 KiB; the address of the part that faults (R347). -/
def State.writePaged (s : State) (cl part va : Nat) (bs : List Byte) : State × Option Nat :=
  let n := 65536 - va % 65536
  match s.writeVirtual cl part va (bs.take n) with
  | (s1, some f) => (s1, some (field f.info 0 57))
  | (s1, none) =>
    if bs.length ≤ n then (s1, none)
    else
      match s1.writeVirtual cl part (va + n) (bs.drop n) with
      | (s2, some f) => (s2, some (field f.info 0 57))
      | (s2, none) => (s2, none)

/-- RECORD_DONE (R347): the statistics table is written, the record is DONE and its face slot is free; or the write
faults and the record is FAULTED with detail 5 (R348). -/
def execRecordDone (n : Nat) (s : State) : Out :=
  let r := s.record n
  if r.complete && !(s.pcb r.part).saving then
    match s.writePaged (s.pcb r.part).firstCluster r.part r.statBase (statBytes r.stats 0 1024) with
    | (s1, some va) => .next (s1.faultRecord n 5 0 va 0)
    | (s1, none) => .next ((s1.setRecord n { r with state := .done }).resolve)
  else .next s

end Sys2Proof.Machine
end

