-- ==== Sys2Proof/Machine/System.lean ====
section
/-! DEFINITION. State registers, user traps, leaving the handler, halting, banks, and the events that stop a core (R74,
R139, R148, R149, R214 to R218, R328, R329, R364 to R369, R386). -/

namespace Sys2Proof.Machine

/-! ### State registers (R74, R149, R329, R365) -/

/-- The number is assigned (R74, R149, R329, R365). -/
def sregAssigned (n : Nat) : Bool :=
  n ≤ 3 || (16 ≤ n && n ≤ 19) || (32 ≤ n && n ≤ 36) || n == 48 || n == 64 || (0x100 ≤ n && n ≤ 0x102) ||
    (0x110 ≤ n && n ≤ 0x150) || (0x160 ≤ n && n ≤ 0x169) || (0x180 ≤ n && n ≤ 0x1FF)

/-- %carve (R74, R146). -/
def Core.carveWord (c : Core) : Word :=
  word (c.ntiles + 2 ^ 6 * cacheSegments c.ntiles + 2 ^ 12 * scratchSegments c.ntiles)

/-- %crew of a core (R74). -/
def Core.crewWord (c : Core) : Word :=
  match c.point with
  | some p => word (p.base + 2 ^ 12 * p.kind + 2 ^ 14 * p.rank)
  | none => 0

/-- %point of a core (R74). -/
def Core.pointWord (c : Core) : Word :=
  match c.point with
  | some p => word (p.recNo + 2 ^ 16 * p.serial)
  | none => 0

/-- %bankmode of a bank (R149). -/
def Cluster.bankWord (c : Cluster) (b : Nat) : Word :=
  let m := tget 0 c.bankMode b
  word (m + 4 * bit (tfind c.bankBusy b).isSome + 16 * (if m = 2 then (tget [] c.fifo b).length else 0))

/-- %srep of a stream (R365). -/
def Stream.repWord (x : Stream) : Word := word (x.pos.reps % 2 ^ 32 + 2 ^ 32 * bit x.ended)

/-- Status of an accumulator as %accst shows it (R365). -/
def Accum.statusBits (a : Accum) : Nat := bit a.ov + 2 * bit a.nv + 4 * bit a.sat

/-- The core's clock has run on by the reading of %cycle: at least one cycle since the last reading (R20, log 5). -/
def State.passCycles (s : State) (k : Nat) : State :=
  let c := s.core k
  (s.setCore k { c with cycle := c.cycle + 1 + zeroExt (Config.freeCycles s.draws) }).draw

/-- A state register of a core as a stream reads it. %energy is the counter of its partition's tag (R410). -/
def State.sreg (s : State) (k : Nat) (st : StreamId) (n : Nat) : Word :=
  let c := s.core k
  if n = 0 then (c.stream st).seq
  else if n = 1 then c.cycle
  else if n = 2 then c.crewWord
  else if n = 3 then c.pointWord
  else if n = 16 then c.trapcause
  else if n = 17 then c.trapinfo
  else if n = 18 then c.trappc
  else if n = 19 then c.trapseq
  else if n = 32 then zeroExt (c.stream st).pace
  else if n = 33 then c.carveWord
  else if n = 34 then zeroExt c.tround
  else if n = 35 then word c.tsrb
  else if n = 36 then zeroExt c.tclamp
  else if n = 48 then s.lampWord k
  else if n = 64 then tget 0 s.energy (s.pcb c.part).tag
  else if n = 0x100 then c.trapvec
  else if n = 0x101 then c.wdog
  else if n = 0x102 then c.lampmax
  else if n = 0x150 then c.partition
  else if n < 0x150 then (s.cluster (clusterOf k)).bankWord (n - 0x110)
  else if n < 0x164 then
    let p := (c.stream (StreamId.ofNum (n - 0x160))).pos
    packPos p.hdr p.off
  else if n < 0x168 then (c.stream (StreamId.ofNum (n - 0x164))).repWord
  else if n = 0x168 then word c.holdBits
  else if n = 0x169 then word (c.m0.statusBits + 16 * c.m1.statusBits)
  else bankGet (c.stream (StreamId.ofNum ((n - 0x180) / 32))).regs (BitVec.ofNat 5 (n - 0x180))

/-- %spos written: the stream resumes there, with the count of %srep (R365, R366). -/
def Stream.setSpos (x : Stream) (v : Word) : Stream :=
  { x with pos := { x.pos with hdr := field v 0 57, off := field v 57 7, entry := .resumed } }

/-- %srep written (R365). -/
def Stream.setSrep (x : Stream) (v : Word) : Stream :=
  let reps := field v 0 32
  { x with
    ended := bitAt v 32,
    pos := { x.pos with reps := reps, entry := if x.pos.entry = .fresh ∧ reps ≠ 0 then .resumed else x.pos.entry } }

/-- Status of an accumulator replaced (R66, R365). -/
def Accum.setStatus (a : Accum) (v : Nat) : Accum :=
  { a with ov := v % 2 == 1, nv := v / 2 % 2 == 1, sat := v / 4 % 2 == 1 }

/-- A core with a state register written; an RO register ignores the write (R5, R74). %tsrb takes all of rs, clamped to 1 to
32, and not its field [5:0] (log 67). -/
def Core.setSreg (c : Core) (st : StreamId) (n : Nat) (v : Word) : Core :=
  if n = 32 then c.setStream st { c.stream st with pace := v.setWidth 16 }
  else if n = 34 then { c with tround := v.setWidth 2 }
  else if n = 35 then { c with tsrb := max 1 (min 32 v.toNat) }
  else if n = 36 then { c with tclamp := v.setWidth 32 }
  else if n = 0x100 then { c with trapvec := v }
  else if n = 0x101 then { c with wdog := word (field v 0 32) }
  else if n = 0x102 then { c with lampmax := word (max 256 (min (2 ^ 24) v.toNat)) }
  else if 0x160 ≤ n ∧ n < 0x164 then
    let x := StreamId.ofNum (n - 0x160)
    c.setStream x ((c.stream x).setSpos v)
  else if 0x164 ≤ n ∧ n < 0x168 then
    let x := StreamId.ofNum (n - 0x164)
    c.setStream x ((c.stream x).setSrep v)
  else if n = 0x169 then { c with m0 := c.m0.setStatus v.toNat, m1 := c.m1.setStatus (v.toNat / 16) }
  else if 0x180 ≤ n ∧ n < 0x200 then
    let x := StreamId.ofNum ((n - 0x180) / 32)
    c.setStream x { c.stream x with regs := bankSet (c.stream x).regs (BitVec.ofNat 5 (n - 0x180)) v }
  else c

/-- The checks of SRD and SWR (R74, R103): an unassigned number is illegal, a privileged one needs the handler. -/
def State.sregCause (s : State) (k : Nat) (st : StreamId) (n : Nat) : Option Nat :=
  if sregAssigned n = false then some 0x01
  else if 0x100 ≤ n ∧ (s.core k).onHandler st = false then some 0x04
  else none

/-- SRD (R214). -/
def execSrd (d : Reg) (n : BitVec 12) (s : State) : Out :=
  onTurn s fun k st =>
    match s.sregCause k st n.toNat with
    | some cause => s.raiseWord k st cause (.srd d n)
    | none =>
      if s.anyPending k st [d] then s.waitOn k st .register
      else
        let s1 := if n = 1 then s.passCycles k else s
        ((s1.setReg k st d (s1.sreg k st n.toNat)).retire k st 2).draw

/-- SWR (R214): a handler address above 57 bits is illegal (R329). -/
def execSwr (a : Reg) (n : BitVec 12) (s : State) : Out :=
  onTurn s fun k st =>
    match s.sregCause k st n.toNat with
    | some cause => s.raiseWord k st cause (.swr a n)
    | none =>
      if s.anyPending k st [a] then s.waitOn k st .register
      else
        let v := s.reg k st a
        if n.toNat = 0x100 ∧ field v 57 7 ≠ 0 then s.raiseWord k st 0x01 (.swr a n)
        else (s.setCore k ((s.core k).setSreg st n.toNat v)).retire k st 2

/-! ### User traps and the handler's own instructions (R215 to R217) -/

/-- TRAP (R215). -/
def execTrap (n : BitVec 12) (s : State) : Out :=
  onTurn s fun k st => s.retireAndRaise k st 0x17 (zeroExt n)

/-- BKPT (R215). -/
def execBkpt (n : BitVec 12) (s : State) : Out :=
  onTurn s fun k st => s.retireAndRaise k st 0x16 (zeroExt n)

/-- CHK (R215). -/
def execChk (a : Reg) (n : BitVec 12) (s : State) : Out :=
  onTurn s fun k st =>
    if s.anyPending k st [a] then s.waitOn k st .register
    else if s.reg k st a = 0 then s.retireAndRaise k st 0x17 (zeroExt n + 4096)
    else s.retire k st 2

/-- PACE (R217). -/
def execPace (n : BitVec 12) (s : State) : Out :=
  onTurn s fun k st => (s.setStream k st { s.stream k st with pace := n.setWidth 16 }).retire k st 2

/-- An instruction of the C stream in privileged state (R94, R103): cause 0x02, then cause 0x04. -/
def privileged (i : Instr) (f : Nat → State → State) (s : State) : Out :=
  onTurn s fun k st =>
    s.ownedBy k st .c i (if (s.core k).onHandler .c then f k s else s.raiseWord k .c 0x04 i)

/-- RETT (R366), once the handler's own accesses have completed. A core that was asked to stop takes the stop after it (R372). -/
def execRett (s : State) : Out :=
  privileged .rett (fun k s =>
    if (s.stream k .c).accesses ≠ [] then s.waitOn k .c .register else ((s.retire k .c 2).returnTrap k).stopNow k) s

/-- HALT (R216): the core stops; it is reported halted when its operations have completed. -/
def execHalt (s : State) : Out :=
  privileged .halt (fun k s =>
    let s1 := s.retire k .c 2
    s1.setCore k { s1.core k with halting := true }) s

/-- Nothing of the core is in progress; a copy stopped by a trap waits for a RETT that will not come, and so does a TDESC for the tile
that such a copy keeps (log 94). -/
def Core.operationsDone (c : Core) : Bool :=
  streamIds.all (fun st => (c.stream st).accesses.isEmpty) && (c.vec.isNone || c.vecWaits) && c.xsw.isNone && c.mat.isEmpty &&
    c.arr.isEmpty && c.copies.all fun p => p.stopped

/-- HALT_COMPLETE (R216, R369): the core's operations have completed; a core of a failed crew halts at its stop units, and
nothing of its point is kept. A core that was asked to stop takes the stop after its HALT (R372). -/
def execHaltComplete (k : Nat) (s : State) : Out :=
  let c := s.core k
  .next
    (if s.clocked k = false then s
    else if c.failed then (if c.acknowledged then s.abandonAll [k] else s)
    else if c.halting && c.operationsDone then (s.setCore k { c with halting := false, halted := true, priv := false }).stopNow k
    else s)

/-! ### Banks (R148, R218, R334) -/

/-- The bank is a shadow bank (R334). -/
def Cluster.isShadow (c : Cluster) (b : Nat) : Bool := decide (64 ≤ b + c.shadow)

/-- Cache banks of a cluster other than one (R148): neither shadow banks nor banks that drain. -/
def Cluster.otherCaches (c : Cluster) (b : Nat) : Nat :=
  ((List.range 64).filter fun x => x != b && !c.isShadow x && tget 0 c.bankMode x == 0 && (tfind c.bankBusy x).isNone).length

/-- What refuses a switch of a bank (R148, R334): a shadow bank, or fewer than 2 cache banks left. -/
def Cluster.bankRefused (c : Cluster) (b m : Nat) : Bool :=
  c.isShadow b || (tget 0 c.bankMode b == 0 && m != 0 && decide (c.otherCaches b < 2))

/-- Drops what a cluster scratch bank holds. -/
def Cluster.clearBank (c : Cluster) (b : Nat) : Cluster :=
  { c with
    scratch := c.scratch.filter fun p => p.1 / 524288 != b,
    scratchFull := c.scratchFull.filter fun p => p.1 / 65536 != b,
    scratchBad := c.scratchBad.filter fun p => p.1 / 524288 != b }

/-- A bank begins to drain (R148). -/
def State.startBank (s : State) (cl b m : Nat) : State :=
  let c := s.cluster cl
  let c1 := if tget 0 c.bankMode b = 1 then c.clearBank b else c
  s.setCluster cl { c1 with bankBusy := tput c1.bankBusy b m }

/-- Another stream, or a bank command of a window, has waited longer for the bank (R218, R336). -/
def State.bankAhead (s : State) (cl b n : Nat) : Bool :=
  (s.waiters.any fun w =>
    match w with
    | (m, k, _, .bank x _) => clusterOf k == cl && x == b && decide (m < n)
    | _ => false) ||
  s.pcbs.any fun p =>
    match p.2.clWait with
    | some m => m.cluster == cl && m.bank == b && decide (m.since < n)
    | none => false

/-- A window command waits for a bank that no switch drains, with nothing before it (R336). -/
def State.bankServable (s : State) (cl b : Nat) : Bool :=
  (tfind (s.cluster cl).bankBusy b).isNone && s.pcbs.any fun p =>
    match p.2.clWait with
    | some n => n.cluster == cl && n.bank == b && !s.bankAhead cl b n.since
    | none => false

/-- The windows whose own switch of a bank has drained are not busy any more (R331). -/
def State.endDrains (s : State) (cl b : Nat) : State :=
  { s with pcbs := s.pcbs.map fun p => (p.1, if p.2.clDrain = some (cl, b) then { p.2 with clDrain := none } else p.2) }

/-- Serves a bank command that has waited longest for its bank (R336). -/
def State.serveBank (s : State) (cl b : Nat) : State :=
  match s.pcbs.find? fun p =>
      match p.2.clWait with
      | some n => n.cluster == cl && n.bank == b && !s.bankAhead cl b n.since
      | none => false with
  | none => s
  | some (p, x) =>
    let c := s.cluster cl
    let m := (x.clWait.map BankCmd.mode).getD 0
    if c.bankRefused b m then s.setPcb p { x with clWait := none, clErr := 2 }
    else if tget 0 c.bankMode b = m then s.setPcb p { x with clWait := none, clErr := 0 }
    else (s.setPcb p { x with clWait := none, clErr := 0, clDrain := some (cl, b) }).startBank cl b m

/-- BANK (R148, R218): the stream stalls until its switch completes. -/
def execBank (m : BitVec 2) (b : BitVec 6) (s : State) : Out :=
  onTurn s fun k st =>
    if !(s.core k).onHandler st then s.raiseWord k st 0x04 (.bank m b)
    else
      let cl := clusterOf k
      let c := s.cluster cl
      if (match (s.stream k st).wait with | some (.bank _ true, _) => true | _ => false) then
        s.waitOn k st (.bank b.toNat true)
      else if c.isShadow b.toNat then s.raise k st 0x0B (word b.toNat)
      else if (tfind c.bankBusy b.toNat).isSome ∨ s.bankAhead cl b.toNat (s.arrival k st (.bank b.toNat false)) then
        s.waitOn k st (.bank b.toNat false)
      else if tget 0 c.bankMode b.toNat = m.toNat then s.retire k st 2
      else if c.bankRefused b.toNat m.toNat then s.raise k st 0x0B (word b.toNat)
      else ((s.startBank cl b.toNat m.toNat).waitOn k st (.bank b.toNat true)).commit k

/-- The stream whose own switch of a bank drains. -/
def State.bankOwner (s : State) (cl b : Nat) : Option (Nat × StreamId) :=
  s.waiters.findSome? fun w =>
    match w with
    | (_, k, st, .bank x true) => if clusterOf k = cl ∧ x = b then some (k, st) else none
    | _ => none

/-- A bank's drain has ended (R148): a FIFO bank is empty. -/
def Cluster.drained (c : Cluster) (b : Nat) : Bool := tget 0 c.bankMode b != 2 || (tget [] c.fifo b).isEmpty

/-- BANK_SWITCH_DONE (R148): the bank takes its new mode, empty, the BANK that asked for it completes, and a
bank command that waited is served; a command that waits for a bank whose turn has come without a drain is served
too (R336). An access to the bank that has passed its checks does not hold the switch up, and is performed on what the bank is then
(log 88). -/
def execBankSwitchDone (cl b : Nat) (s : State) : Out :=
  let c := s.cluster cl
  match tfind c.bankBusy b with
  | none => .next (s.serveBank cl b)
  | some m =>
    if c.drained b && !c.stopped then
      let c1 := c.clearBank b
      let s1 := (s.endDrains cl b).setCluster cl { c1 with bankMode := tset 0 c1.bankMode b m, bankBusy := terase c1.bankBusy b, fifo := terase c1.fifo b }
      match s.bankOwner cl b with
      | some (k, st) => .next ((s1.retire k st 2).serveBank cl b)
      | none => .next (s1.serveBank cl b)
    else .next s

/-! ### Events that stop a core -/

/-- TRAP_ENTRY (R364). -/
def execTrapEntry (k : Nat) (s : State) : Out := .next (if s.clocked k then s.enterTrap k else s)

/-- The streams of a core that are blocked, as cause 0x15 shows them (R139): bit 3 C to bit 0 H. -/
def Core.blockedBits (c : Core) : Nat :=
  let b (st : StreamId) : Nat := bit ((c.stream st).wait.isSome && !(c.stream st).ended)
  8 * b .c + 4 * b .t + 2 * b .a + b .h

/-- The watchdog trap of one core (R139, R364, R368, R369). -/
def State.watchdogTrap (s : State) (k : Nat) : State :=
  let c := s.core k
  let info := word c.blockedBits
  if c.halted || c.point.isNone then s
  else if c.priv then s.doubleFault k 0x15
  else if c.raised.isSome then
    if c.strC.held.isSome then s
    else s.setCore k { c with strC := { c.strC with held := some ⟨0x15, info, .c, c.strC.pos.hdr, c.strC.pos.off, c.strC.seq⟩ } }
  else s.raiseAt k .c 0x15 info c.strC.pos.hdr c.strC.pos.off

/-- The watchdog trap of a list of cores. -/
def State.watchdogTraps (s : State) : List Nat → State
  | [] => s
  | k :: r => (s.watchdogTrap k).watchdogTraps r

/-- The crew watchdog of a core counts: it is set, and the crew neither freezes nor saves, nor is its clock stopped (R139, R329,
R360, R404). -/
def State.watchdogCounts (s : State) (k : Nat) : Bool :=
  let c := s.core k
  c.wdog != 0 && c.point.isSome && !c.halted && !c.frozen && !c.stop && !c.suspended &&
    !(s.cluster (clusterOf k)).stopped

/-- WATCHDOG_EXPIRY (R139): cause 0x15 at every core of the crew. -/
def execWatchdogExpiry (k : Nat) (s : State) : Out :=
  match (s.core k).point with
  | none => .next s
  | some p => .next (if s.watchdogCounts k then s.watchdogTraps (crewCores p.kind p.base) else s)

/-- ECC_FREEZE (R386). -/
def execEccFreeze (k : Nat) (s : State) : Out := .next (s.setCore k { s.core k with frozen := true })

/-- ECC_FREEZE_END (R386). -/
def execEccFreezeEnd (k : Nat) (s : State) : Out := .next (s.setCore k { s.core k with frozen := false })

end Sys2Proof.Machine
end

