-- ==== Sys2Proof/Machine/Partition.lean ====
section
/-! DEFINITION. Partitions: forming and dissolving, their windows, phaser configuration, bank commands and panel
controls (R245, R328 to R339, R371, R416, R420, R421). -/

namespace Sys2Proof.Machine

/-! ### Members -/

/-- Clusters a partition control block names. -/
def Pcb.clusterList (b : Pcb) : List Nat := (List.range 128).filter fun k => b.clusters.getLsbD k

/-- Cores of those clusters, in ascending order. -/
def Pcb.coreList (b : Pcb) : List Nat := b.clusterList.flatMap fun k => (List.range 16).map (16 * k + ·)

/-- Records of the slice. -/
def Pcb.slice (b : Pcb) : List Nat := (List.range b.poolCnt).map (b.poolBase + ·)

/-- Leaves the result of a command in ERR (R330). -/
def State.pcbErr (s : State) (p e : Nat) : State := s.setPcb p { s.pcb p with err := e }

/-! ### Steps of R332 -/

/-- A core with its core array bytes zero and its words empty. -/
def Core.wipe (c : Core) : Core := { c with scratch := [], scratchFull := [], scratchBad := [], tiles := [], cache := [] }

/-- A phaser allocated to a partition in count mode at phase 0; ORDCFG is a register of its own (R335, R416). -/
def Phaser.fresh (p : Phaser) (part : Nat) : Phaser :=
  { Phaser.reset with alloc := true, part := part, ordEn := p.ordEn, ordLo := p.ordLo, ordNsrc := p.ordNsrc, ordErr := p.ordErr }

/-- A member cluster after steps 1 to 3: SRAM zero, banks in cache mode, phasers allocated, queues unconfigured. -/
def Cluster.fresh (c : Cluster) (part shadow : Nat) : Cluster :=
  { c with
    bankMode := [], bankBusy := [], fifo := [], fifoBad := [], scratch := [], scratchFull := [], scratchBad := [], shadow := shadow,
    phasers := (List.range 64).map fun n => (n, Phaser.reset.fresh part), queues := [] }

/-- Wipes the core arrays of some cores. -/
def State.wipeCores (s : State) : List Nat → State
  | [] => s
  | k :: l => (s.setCore k (s.core k).wipe).wipeCores l

/-- Steps 1 to 3 for some clusters. -/
def State.freshClusters (s : State) (part shadow : Nat) : List Nat → State
  | [] => s
  | k :: l => (s.setCluster k ((s.cluster k).fresh part shadow)).freshClusters part shadow l

/-- Device phasers whose bits are set, allocated to a partition. -/
def State.freshDevice (s : State) (part : Nat) (bits : BitVec 256) : List Nat → State
  | [] => s
  | n :: l =>
    (if bits.getLsbD n then { s with dphasers := tput s.dphasers n ((s.dphaser n).fresh part) } else s).freshDevice
      part bits l

/-- A partition whose banks start afresh has no switch of its window in progress (R331). -/
def Pcb.noSwitch (b : Pcb) : Pcb := { b with clWait := none, clDrain := none }

/-- Steps 1 to 3 of R332. -/
def State.freshPartition (s : State) (p : Nat) : State :=
  let b := s.pcb p
  let s1 := ((s.wipeCores b.coreList).freshClusters p b.shadow b.clusterList).freshDevice p b.dphaser (List.range 256)
  s1.setPcb p b.noSwitch

/-- A record becomes FREE; its bytes stay. -/
def Record.freed (r : Record) : Record := { Record.reset with words := r.words, arming := r.arming }

/-- Records become FREE. -/
def State.freeRecords (s : State) : List Nat → State
  | [] => s
  | n :: l => (s.setRecord n (s.record n).freed).freeRecords l

/-- A panel as FORM takes it (R245): every weight driven to 0, the mask all live, the generators seeded with 0. On a
real panel each weight is what its programming leaves (log 7). -/
def Panel.taken (x : Panel) (q : Physics) (part : Nat) : Panel :=
  let cells (n : Nat) : Tbl Rat :=
    tmerge 0 ((List.range panelCells).map fun c => (c, q.driven (n + c) 0)) []
  { x with
    slow := cells 0, fast := cells 262144, mask := [], maskBound := false, maskHome := 0,
    rowGen := zeroSubstitute, colGen := zeroSubstitute, owner := some part }

/-- The panels of a core pass to a partition. -/
def State.takePanels (s : State) (k part : Nat) : List Nat → State
  | [] => s
  | p :: l =>
    let c := s.core k
    let s1 := s.setCore k (c.setPanel p ((c.panel p).taken ⟨s.nominal, s.draws, panelKey k p (c.panel p).spare⟩ part))
    ({ s1 with draws := s1.draws + unitSpan }).takePanels k part l

/-- A member core at FORM (R332, step 7; R364): %partition written, the privileged registers at their reset values, the
handler bank zero. It belongs to no crew any more, where it halted inside one, so that RELEASE makes it idle (R371). -/
def Core.formed (c : Core) (b : Pcb) (p : Nat) : Core :=
  { c.abandon with
    trapvec := 0, wdog := 0x04000000, lampmax := 65536,
    partition := word (p + 2 ^ 7 * bit b.isSealed + 2 ^ 8 * b.tag), hregs := Vector.replicate 32 0, hstack := [] }

/-- Member cores pass to a partition with their panels. -/
def State.formCores (s : State) (p : Nat) : List Nat → State
  | [] => s
  | k :: l => ((s.setCore k ((s.core k).formed (s.pcb p) p)).takePanels k p (List.range 32)).formCores p l

/-- Another formed partition with a property. -/
def State.otherFormed (s : State) (p : Nat) (f : Pcb → Bool) : Bool := s.pcbs.any fun x => x.1 != p && x.2.formed && f x.2

/-- Two slices overlap. -/
def Pcb.overlaps (a b : Pcb) : Bool := decide (a.poolBase < b.poolBase + b.poolCnt ∧ b.poolBase < a.poolBase + a.poolCnt)

/-- The error FORM is refused with, 0 where it is accepted (R332, R422). -/
def State.formError (s : State) (p : Nat) : Nat :=
  let b := s.pcb p
  if b.formed then 2
  else if b.clusterList.any (fun k => (s.cluster k).lost || s.otherFormed p fun x => x.clusters.getLsbD k) ||
      b.coreList.any (fun k => !(s.core k).halted) then 5
  else if b.clusters = 0 ∨ b.poolCnt = 0 ∨ 4096 < b.poolBase + b.poolCnt ∨ s.otherFormed p b.overlaps then 3
  else if s.otherFormed p fun x => x.dphaser &&& b.dphaser != 0 then 3
  else if b.tag = 0 ∨ s.otherFormed p fun x => x.tag == b.tag then 3
  else if b.troot % 4 ≠ 0 ∨ Config.hbmSize ≤ 4096 * b.troot then 3
  else if 56 < b.shadow then 3
  else 0

/-- What a partition's measurement covers (R402): PCB bytes 0 to 0x3F and the slice, as one number. -/
def State.formContent (s : State) (p : Nat) : Nat :=
  let b := s.pcb p
  let w2 := 1 + 2 * bit b.isSealed + 2 ^ 2 * b.shadow + 2 ^ 8 * b.tag + 2 ^ 32 * b.poolBase + 2 ^ 44 * b.poolCnt
  let head := leBytes 16 b.clusters.toNat ++ leBytes 8 w2 ++ leBytes 8 b.troot ++ leBytes 32 b.dphaser.toNat
  leNat (head ++ b.slice.flatMap fun n => (s.record n).words.toList.flatMap fun w => leBytes 8 w.toNat)

/-- The measurement of a partition before a FORM or DISSOLVE, which GET_MEASUREMENTS reports until the round ends (R402). -/
def State.noteMeasured (s : State) (p : Nat) : State :=
  if (tfind s.measured p).isSome then s
  else { s with measured := tput s.measured p (if (s.pcb p).formed then some (s.pcb p).formNo else none) }

/-- FORM (R332). A device that a failed check of R400 stopped forms nothing. -/
def execForm (part : Nat) (s : State) : Out :=
  let p := part % 128
  .next
    (if s.fwstat ≠ 0 then s
    else if s.formError p ≠ 0 then s.pcbErr p (s.formError p)
    else
      let s1 := ((s.noteMeasured p).freshPartition p).freeRecords (s.pcb p).slice
      let s2 := s1.formCores p (s.pcb p).coreList
      let s3 := { s2 with keys := s2.keys + 1 }
      s3.setPcb p { s3.pcb p with formed := true, err := 0, keySlot := p + 1, key := s3.keys, formNo := s3.formContent p, saved := false, isLost := false, emerg := false })

/-- A record that does not stand in the way of DISSOLVE (R333). -/
def Record.settled (r : Record) : Bool := r.state == .free || r.state == .done || r.state == .faulted

/-- Frees the phasers of a partition (R335). -/
def Phaser.unallocate (x : Phaser) (p : Nat) : Phaser := if x.alloc && x.part == p then { x with alloc := false } else x

/-- A panel whose partition is dissolved keeps its weights and belongs to none. -/
def Core.dropPanels (c : Core) : Core := { c with panels := c.panels.map fun x => (x.1, { x.2 with owner := none }) }

/-- Cores of a partition lose their panels. -/
def State.dropPanels (s : State) : List Nat → State
  | [] => s
  | k :: l => (s.setCore k (s.core k).dropPanels).dropPanels l

/-- A cluster of a dissolved partition: its SRAM zero, its phasers not allocated. -/
def Cluster.dissolved (c : Cluster) (p : Nat) : Cluster :=
  { c with
    bankMode := [], bankBusy := [], fifo := [], fifoBad := [], scratch := [], scratchFull := [], scratchBad := [],
    phasers := c.phasers.map fun x => (x.1, x.2.unallocate p) }

/-- Clusters of a partition are dissolved. -/
def State.dissolveClusters (s : State) (p : Nat) : List Nat → State
  | [] => s
  | k :: l => (s.setCluster k ((s.cluster k).dissolved p)).dissolveClusters p l

/-- DISSOLVE (R333). -/
def execDissolve (part : Nat) (s : State) : Out :=
  let p := part % 128
  let b := s.pcb p
  .next
    (if !b.formed || b.saving || b.restoring || b.coreList.any (fun k => !(s.core k).halted) ||
        b.slice.any (fun n => !(s.record n).settled) then s.pcbErr p 2
    else
      let s1 := (((s.noteMeasured p).wipeCores b.coreList).dissolveClusters p b.clusterList).dropPanels b.coreList
      let s2 := { s1.freeRecords b.slice with dphasers := s1.dphasers.map (fun (x : Nat × Phaser) => (x.1, x.2.unallocate p)), saves := terase s1.saves p }
      s2.setPcb p { b.noSwitch with formed := false, saved := false, keySlot := 0, key := 0, err := 0 })

/-- Halted cores that belong to no running crew become idle (R371). -/
def State.releaseCores (s : State) : List Nat → State
  | [] => s
  | k :: l =>
    let c := s.core k
    (if c.halted && c.point.isNone then s.setCore k { c with halted := false } else s).releaseCores l

/-- RELEASE (R371). -/
def execRelease (part : Nat) (s : State) : Out :=
  let p := part % 128
  let b := s.pcb p
  .next
    (if b.saving || b.restoring then s.pcbErr p 2
    else if b.formed then (s.releaseCores b.coreList).pcbErr p 0
    else s.pcbErr p 0)

/-! ### Phaser configuration (R335, R416) -/

/-- A phaser of a cluster or of the device by BIND number: 1 to 64, 65 to 320. -/
def phaserNumber (n : Nat) : Nat := if n = 0 then 1 else if n ≤ 320 then n else 65 + (n - 65) % 256

/-- A write that leaves ALLOC = 1 names a partition that may own the phaser. -/
def State.phaserOwner (s : State) (cl n part : Nat) : Bool :=
  (s.pcb part).formed &&
    (if n ≤ 64 then s.partitionOf cl == some part else (s.pcb part).dphaser.getLsbD (n - 65))

/-- The partition whose seal guards a phaser: that of its cluster, or its owner. -/
def State.phaserGuard (s : State) (cl n : Nat) : Bool :=
  if n ≤ 64 then
    match s.partitionOf cl with
    | some p => (s.pcb p).isSealed
    | none => false
  else (s.phaser cl n).alloc && (s.pcb (s.phaser cl n).part).isSealed

/-- The error of a PHCFG write, 0 where it is accepted. -/
def State.phcfgError (s : State) (cl n : Nat) (v : Word) : Nat :=
  let x := s.phaser cl n
  if s.phaserGuard cl n then 4
  else if !x.members.isEmpty then 5
  else if bitAt v 0 && !s.phaserOwner cl n (field v 2 7) then 3
  else if decide (64 < n) && !bitAt v 1 && x.ordEn then 3
  else 0

/-- An accepted write: a change of ALLOC, BYTES or PART sets the phase to 0 and clears the count and the bytes. -/
def Phaser.configure (x : Phaser) (v : Word) : Phaser :=
  if x.alloc = bitAt v 0 ∧ x.bytes = bitAt v 1 ∧ x.part = field v 2 7 then { x with err := 0 }
  else
    { x with
      alloc := bitAt v 0, bytes := bitAt v 1, part := field v 2 7, err := 0, phase := 0, posted := none, arrived := 0,
      signalled := false, gates := [], excess := 0, shares := [] }

/-- PHCFG_WRITE (R335): the phaser is numbered as BIND numbers it. -/
def execPhcfgWrite (cluster phaser : Nat) (value : Word) (s : State) : Out :=
  let cl := cluster % 128
  let n := phaserNumber phaser
  let e := s.phcfgError cl n value
  .next
    (if s.fwstat ≠ 0 then s
    else if e = 0 then s.setPhaser cl n ((s.phaser cl n).configure value)
    else s.setPhaser cl n { s.phaser cl n with err := e })

/-- ORDCFG_WRITE (R416): of device phaser `phaser`. Chunks that wait for a turn are served if the write gives them one. -/
def execOrdcfgWrite (phaser : Nat) (value : Word) (s : State) : Out :=
  let n := phaser % 256
  let x := s.dphaser n
  let lo := field value 1 19
  let nsrc := field value 20 13
  let e := if !x.members.isEmpty then 5
    else if (bitAt value 0 && !x.bytes) || nsrc == 0 || decide (4096 < nsrc ∨ 2 ^ 19 < lo + nsrc) then 3
    else 0
  let y := if e = 0 then { x with ordEn := bitAt value 0, ordLo := lo, ordNsrc := nsrc, ordErr := 0 }
    else { x with ordErr := e }
  let s1 := { s with dphasers := tput s.dphasers n y }
  .next (if s.fwstat ≠ 0 then s else s1.serveInbound s1.inbound.length)

/-! ### The stages of bring-up (R418 to R422) -/

/-- The panels of a core have been through calibration: in service, retired, or to be remapped. -/
def Core.panelsDone (c : Core) : Bool :=
  (List.range 32).all fun p => (c.panel p).calibrated || (c.panel p).retired || (c.panel p).retiring

/-- The panels of a shaft have been through calibration. -/
def State.shaftDone (s : State) (n : Nat) : Bool := (s.core (2 * n)).panelsDone && (s.core (2 * n + 1)).panelsDone

/-- The panels of a cluster have been through calibration, or the cluster is lost. -/
def State.clusterDone (s : State) (n : Nat) : Bool :=
  (s.cluster n).lost || (List.range 8).all fun i => s.shaftDone (8 * n + i)

/-- A stack has power, and its clusters in service have their rails trimmed. -/
def State.stackTrimmed (s : State) (stack : Nat) : Bool :=
  !s.cut.getLsbD stack && (List.range 32).all fun i => (s.cluster (32 * stack + i)).trimmed || (s.cluster (32 * stack + i)).lost

/-- A cluster may be calibrated: every rail has been trimmed since the firmware started, and those of its stack are, which may have
been cut since (R419, R420). -/
def State.calOpen (s : State) (n : Nat) : Bool := s.rails && s.stackTrimmed (n / 32)

/-- A cluster is to be calibrated now. -/
def State.calDue (s : State) (n : Nat) : Bool := !s.clusterDone n && s.calOpen n

/-- The cluster to be calibrated: the one under calibration until it is done, and then the next in ascending order (R420). -/
def State.nextCal (s : State) : Option Nat := if s.calDue s.calcl then some s.calcl else (List.range 128).find? s.calDue

/-- Every cluster in service has its rail trimmed. -/
def State.allTrimmed (s : State) : Bool := (List.range 128).all fun n => (s.cluster n).trimmed || (s.cluster n).lost

/-- Calibration asks for the lamps of the shafts of a list that it has still to do (R420). -/
def State.askCals (s : State) : List Nat → State
  | [] => s
  | n :: l => (if s.shaftDone n then s else s.askCal n).askCals l

/-- Shafts of a cluster. -/
def clusterShafts (n : Nat) : List Nat := (List.range 8).map (8 * n + ·)

/-- The stage as the trims and the calibration stand (R419, R420): trimmed, the first cluster with panels to do is under
calibration; with none left the device is in full service. While one stack is in stage 1 again, calibration goes on in the
others. -/
def State.bringUpOn (s : State) : State :=
  let s1 := if s.stage = 1 ∧ s.allTrimmed then { s with stage := 2, rails := true } else s
  match s1.nextCal with
  | some n => ({ s1 with calcl := n }).askCals (clusterShafts n)
  | none => if s1.stage = 2 ∧ (List.range 128).all s1.clusterDone then { s1 with stage := 3 } else s1

/-- Calibration holds or asks for the lamp of a shaft no longer than it has panels of it to do (R420). -/
def State.calOver (s : State) (n : Nat) : State :=
  if s.calOpen (n / 8) ∧ s.calcl = n / 8 ∧ s.shaftDone n = false then s else s.freeCal n

/-- A panel of core k is through with calibration, or asked to retire: the lamp of its shaft is given up after the last of the shaft, and
the next cluster has its turn after the last of a cluster (R420). -/
def State.calNext (s : State) (k : Nat) : State := (s.calOver (shaftOf k)).bringUpOn

/-! ### The windows of a partition (R331, R333, R336, R339) -/

/-- The member cluster of a rank, in ascending cluster number (R333). -/
def Pcb.clusterAt (b : Pcb) (rank : Nat) : Option Nat := if b.formed then b.clusterList[rank]? else none

/-- A write to a window of a sealed partition is dropped and logged with kind 5 (R397 to R399). -/
def State.windowWrite (s : State) (p offset : Nat) (f : State) : State :=
  if s.fwstat ≠ 0 then s
  else if (s.pcb p).isSealed && (s.pcb p).formed then s.logHost 5 p (0x01000000 + 0x00100000 * p + offset) false else f

/-- A write into the slot of a core, as an SWR of the register would do it (R329, R333): the error, or the core. -/
def Core.slotWrite (c : Core) (reg : Nat) (v : Word) : Except Nat Core :=
  if c.halted = false then .error 5
  else
    match reg with
    | 0 => if v.toNat / 2 ^ 57 ≠ 0 then .error 3 else .ok { c with trapvec := v }
    | 1 => .ok { c with wdog := word (field v 0 32) }
    | 2 => .ok { c with lampmax := word (max 256 (min (2 ^ 24) v.toNat)) }
    | _ => .ok c

/-- CORE_ACCESS_WRITE (R328, R333): at an offset in the core access window. -/
def execCoreAccessWrite (part offset : Nat) (value : Word) (s : State) : Out :=
  let p := part % 128
  .next (s.windowWrite p (0x1000 + offset)
    (match (s.pcb p).clusterAt (offset / 1024) with
    | none => s
    | some cl =>
      let k := 16 * cl + offset / 64 % 16
      let reg := offset / 8 % 8
      if 4 ≤ reg then s
      else
        match (s.core k).slotWrite reg value with
        | .error e => s.pcbErr p e
        | .ok c => s.setCore k c))

/-- A value of SW that is accepted: a power of two from 2^-16 to 2^15 (R339). -/
def scaleOk (v : Word) : Bool :=
  field v 31 1 == 0 && field v 0 23 == 0 && decide (111 ≤ field v 23 8 ∧ field v 23 8 ≤ 142)

/-- PANEL_CONTROL_WRITE (R339): at an offset in the panel window. An accepted SW waits until the panel is not active;
RETIRE requests retirement. -/
def execPanelControlWrite (part offset : Nat) (value : Word) (s : State) : Out :=
  let p := part % 128
  .next (s.windowWrite p (0x40000 + offset)
    (match (s.pcb p).clusterAt (offset / 4096) with
    | none => s
    | some cl =>
      let k := 16 * cl + offset / 256 % 16
      let n := offset / 8 % 32
      let x := (s.core k).panel n
      if scaleOk value = false then s.pcbErr p 3
      else
        let s1 := s.setCore k ((s.core k).setPanel n
          { x with pendingSw := some (value.setWidth 32), retiring := x.retiring || bitAt value 34 })
        if bitAt value 34 then s1.calNext k else s1))

/-- Panel p of the core is active: an array operation on it has issued and not completed (R18). -/
def Core.panelActive (c : Core) (p : Nat) : Bool := c.active.any fun o => o.panel == p

/-- WEIGHT_SCALE_APPLY (R339). -/
def execWeightScaleApply (k p : Nat) (s : State) : Out :=
  let c := s.core k
  let x := c.panel p
  match x.pendingSw with
  | none => .next s
  | some v =>
    if c.panelActive p then .next s
    else .next (s.setCore k (c.setPanel p { x with sw := v, pendingSw := none }))

/-- BUSY of CLCMD (R331): the window's own switch drains, or waits for its bank. -/
def Pcb.clBusy (b : Pcb) : Bool := b.clWait.isSome || b.clDrain.isSome

/-- CLUSTER_BANK_COMMAND (R331, R336): CLCMD with GO, which is ignored while BUSY; the fields are written all the same. Of
several errors the lowest is left, which R331 leaves open (log 81). A command for a bank that is mid-switch waits its turn. -/
def execClusterBankCommand (part cluster bank mode : Nat) (s : State) : Out :=
  let p := part % 128
  let b := s.pcb p
  let cl := cluster % 128
  let n := bank % 64
  let m := mode % 4
  let x := { b with clCluster := cl, clBank := n, clMode := m }
  .next (s.windowWrite p 0x118
    (if b.clBusy then s.setPcb p x
    else if b.member cl = false then s.setPcb p { x with clErr := 1 }
    else if (s.cluster cl).isShadow n then s.setPcb p { x with clErr := 2 }
    else if m = 3 then s.setPcb p { x with clErr := 3 }
    else
      let s1 := (s.setPcb p { x with clErr := 0, clWait := some ⟨s.order, cl, n, m⟩ }).tick
      if (tfind (s.cluster cl).bankBusy n).isSome then s1 else s1.serveBank cl n))

/-! ### Calibration, retirement and remapping (R420, R421) -/

/-- Parameters of the calibration's ACAL: reset values but for ap.bl = 4 and ap.ns = 16, over all columns (R420). -/
def calParams : Vector Word 24 := (apReset.set 1 4).set 12 16

/-- Runs stop units of ACAL on a panel held for it. -/
def calRun (q : Physics) : Nat → Core × ArrOp → Core × ArrOp
  | 0, r => r
  | n + 1, r =>
    let x := calUnit { q with base := q.base + unitSpan * (n + 1) } r.1 r.2 0
    calRun q n (x.1, x.2.step)

/-- ACAL over all 512 columns with its AZERO, on a panel alone (R265, R420). -/
def Panel.calRan (x : Panel) (q : Physics) : Panel :=
  let o : ArrOp := ⟨.acal 0 0 0 0, 0, 0, calParams, 0, 0, false, false, false, [], false, false, 0, 0, 0⟩
  (calRun q o.total (Core.reset.setPanel 0 x, o)).1.panel 0

/-- A BF16 code that may be a gain: positive, finite and not 0; any other stands for 1 (log 7). -/
def gainCode (b : BitVec 16) : BitVec 16 := if 1 ≤ b.toNat ∧ b.toNat < 0x7F80 then b else 0x3F80

/-- Gains that calibration finds: 1 under the nominal model, a free positive value otherwise, which makes up for the line's response
to within 0.5 % (R253, R420, log 7). -/
def calGains (q : Physics) (n : Nat) : Tbl (BitVec 16) :=
  if q.nominal then [] else (List.range 512).map fun j => (j, gainCode (Config.realGain (q.base + n + j)))

/-- The four steps of R420 on a panel. -/
def Panel.calibrate (x : Panel) (q : Physics) : Panel :=
  ({ x with gcol := calGains q 0, hrow := calGains q 512, sw := 0x3F800000 }).calRan q

/-- The assayed value of a slow cell as BF16, s_w and the column gain in it (R266, R421). -/
def Panel.assayCode (x : Panel) (q : Physics) (full : Rat) (i j : Nat) : Nat :=
  (ratTo 1 (((q.adcSum (16 * (512 * i + j)) (x.gain j) (q.drive (512 * i + j) i 127 * x.slowAt i j) full 16).1 : Rat) / 16 * full * x.scale * x.gain j / 127)).1

/-- Full scale of the remapping assay's ADC (R51): its ap.orng is free (log 23). -/
def remapFull : Rat := ((Config.remapRange % 65535 + 1 : Nat) : Rat) / 511

/-- The spare a panel is remapped onto (R421): the assay programmed, mask and generators carried over, calibrated,
SPARE and CAL set. Its wear is its own, and the advisory of a lost cluster stays (R422). `q` is the physics of the old panel, `r` that of the spare. -/
def Panel.remapped (x : Panel) (q r : Physics) : Panel :=
  let goals : List Nat := List.range panelCells
  let slow := tmerge 0 (goals.map fun c =>
    (c, r.driven (unitSpan / 4 + c)
      (weightClamp ((floatVal 1 (x.assayCode q remapFull (c / 512) (c % 512))).rat / x.scale)))) []
  let y : Panel := { Panel.reset with slow := slow, mask := x.mask, maskBound := x.maskBound, maskHome := x.maskHome, rowGen := x.rowGen, colGen := x.colGen, owner := x.owner, advise := x.advise }
  { y.calibrate { r with base := r.base + unitSpan } with calibrated := true, spare := true }

/-- RETIRE (R339, R421). -/
def execRetire (k p : Nat) (s : State) : Out :=
  let c := s.core k
  .next ((s.setCore k (c.setPanel p { c.panel p with retiring := true })).calNext k)

/-- Free values a calibration of one panel may use. -/
def calSpan : Nat := 2048 * unitSpan

/-- PANEL_REMAP (R421): once the panel is not active, onto a free spare of its core, which is calibrated with the shaft's lamp held
(R420), not before the rails are trimmed (R419); a spare whose own calibration fails is to be remapped in turn. Without a spare
the panel is retired, and the advisory is raised (R422). -/
def execPanelRemap (k p : Nat) (s : State) : Out :=
  let c := s.core k
  let x := c.panel p
  if !x.leaving || c.panelActive p then .next s
  else if c.spares = 0 then
    .next ({ s.setCore k (c.setPanel p { x with retiring := false, retired := true, advise := true }) with advise := true, nret := s.nret + 1 }.calNext k)
  else if s.calOpen (clusterOf k) = false then .next s
  else
    let s1 := s.askCal (shaftOf k)
    if !(s1.shaft (shaftOf k)).cal then .next s1
    else
      let y := x.remapped ⟨s.nominal, s.draws, panelKey k p x.spare⟩ ⟨s.nominal, s.draws, panelKey k p true⟩
      let fails := !s.nominal && Config.spareFails s.draws
      let y1 := if fails then { y with calibrated := false, retiring := true } else y
      let s2 := { s1.setCore k { c.setPanel p y1 with spares := c.spares - 1 } with draws := s.draws + calSpan }
      .next (s2.calNext k)

end Sys2Proof.Machine
end

