-- ==== Sys2Proof/Machine/Preempt.lean ====
section
/-! DEFINITION. Pre-emption and restore: the cut, the images, the save records, the directory, and what becomes of a save
that fails (R135 to R137, R317, R370 to R387). -/

namespace Sys2Proof.Machine

/-! ### Starting a save (R371, R372) -/

/-- Cores of a partition that run a point. -/
def State.runners (s : State) (p : Nat) : List Nat :=
  (s.cores.filter fun x => x.2.point.isSome && x.2.part == p).map fun x => x.1

/-- A point of a record returns to not fired (R351, R356): the intervals of a RANGE point go back on the list. -/
def Record.cancel (r : Record) (f : Fired) : Record :=
  { r with
    points := r.points.filter fun p => p.serial != f.serial,
    returned := r.returned ++ (if r.isRange then f.intervals.filter fun i => decide (i.1 < i.2) else []) }

/-- Points of a record return to not fired. -/
def Record.cancelAll (r : Record) (l : List Fired) : Record := l.foldl Record.cancel r

/-- Fired points of a partition that no crew has started return to not fired (R351, R372). -/
def State.unready (s : State) (p : Nat) : State :=
  { s with
    records := s.records.map fun x =>
      (x.1, if x.2.part = p ∧ x.2.state = .active then x.2.cancelAll (x.2.points.filter fun f => !f.started) else x.2) }

/-- A core is asked to stop. A wait that a phase has satisfied completes first (R190). -/
def State.stopCore (s : State) (k : Nat) : State :=
  let s1 := if s.clocked k then s.catchUp [k] else s
  (s1.takeStop k).setCore k { (s1.takeStop k).core k with stop := true }

/-- Cores are asked to stop. -/
def State.stopCores (s : State) : List Nat → State
  | [] => s
  | k :: l => (s.stopCore k).stopCores l

/-- Stopping cores give their lamps up. -/
def State.passLamps (s : State) : List Nat → State
  | [] => s
  | k :: l => (s.passLamp k).passLamps l

/-- Stopping cores of a list take the stop. -/
def State.takeStops (s : State) : List Nat → State
  | [] => s
  | k :: l => (s.stopNow k).takeStops l

/-- Steps 1 and 2 of R372. The lamps pass at once: a core that is granted one while it stops gives it up at once too, which may
be its twin before it in the list (R317). -/
def State.startSave (s : State) (p : Nat) (emerg : Bool) : State :=
  let b := s.pcb p
  let s1 := s.setPcb p { b with saveNo := (b.saveNo + 1) % 2 ^ 31, saving := true, saveStopped := false, emerg := emerg, isLost := false, err := 0 }
  let l := s1.runners p
  ((s1.unready p).stopCores l).passLamps (l ++ l)

/-- The error PREEMPT is refused with, 0 where it is accepted (R371): on a sealed partition only a session may ask for it. -/
def Pcb.preemptError (b : Pcb) (session : Bool) : Nat :=
  if b.isSealed && !session then 4
  else if !b.formed || b.saved || b.saving || b.restoring then 2
  else if b.saveBase = 0 then 3
  else 0

/-- PREEMPT, by the control block or in a session (R371, R372). -/
def State.hostPreempt (s : State) (p : Nat) (session : Bool) : State :=
  let e := (s.pcb p).preemptError session
  if e = 0 then s.startSave p false else s.pcbErr p e

/-- PREEMPT (R371, R372). -/
def execPreempt (part : Nat) (s : State) : Out := .next (s.hostPreempt (part % 128) false)

/-- The lamp room's emergency save (R387): it joins a save that runs, and needs neither a session nor SAVEBASE. -/
def State.emergencySave (s : State) (p : Nat) : State :=
  let b := s.pcb p
  if !b.formed || b.saved || b.saving || b.restoring then s else s.startSave p true

/-! ### The stop (R364, R372 to R374) -/

/-- Every core of the partition that runs a point has acknowledged, its clock running, out of privileged state. -/
def State.allStopped (s : State) (p : Nat) : Bool :=
  (s.runners p).all fun k => s.clocked k && (s.core k).acknowledged && (!(s.core k).priv || (s.core k).halted)

/-- A trap raised and not entered is held by its stream (R372). Where the stream holds another one, the trap stays raised, and is
the first that is entered after the restore. -/
def Core.holdRaised (c : Core) : Core :=
  match c.raised with
  | none => c
  | some t =>
    let x := c.stream t.stream
    if x.held.isSome then c else { c.setStream t.stream { x with held := some t } with raised := none }

/-- Stopped cores hold their traps (R372). -/
def State.holdAll (s : State) : List Nat → State
  | [] => s
  | k :: l => (s.setCore k (s.core k).holdRaised).holdAll l

/-- Requests of stopped cores end with the last acknowledgement (R317). -/
def State.withdrawAll (s : State) : List Nat → State
  | [] => s
  | k :: l => (s.withdrawLamp k).withdrawAll l

/-- A core with its point gone, as it stood otherwise; one of a failed crew halts (R369). -/
def Core.vacate (c : Core) : Core := { c.abandon with halted := c.halted || c.failed, suspended := false }

/-- Participants that p selects leave a phaser (R195, R197). -/
def Phaser.dropMembers (x : Phaser) (p : Participant → Bool) : Phaser :=
  { x with
    members := x.members.filter fun m => !p m,
    signalled := x.signalled || x.members.any fun m => p m && m.sig && m.cursor == x.phase }

/-- The registrations of the streams of one core's point are dropped, as by PEND (R195, R372). -/
def State.dropRegistrations (s : State) (k : Nat) (key : Nat × Nat) : State :=
  let mine (m : Participant) : Bool := m.core == k && (m.recNo, m.serial) == key
  { s with
    clusters := s.clusters.map fun c => (c.1, { c.2 with phasers := c.2.phasers.map fun x => (x.1, x.2.dropMembers mine) }),
    dphasers := s.dphasers.map fun x => (x.1, x.2.dropMembers mine) }

/-- Cores of a point become idle with nothing of it kept: registrations and tickets go (R361, R372). -/
def State.discardCores (s : State) (key : Nat × Nat) : List Nat → State
  | [] => s
  | k :: l =>
    let s1 := (s.voidTickets k (s.core k).heldTickets).dropRegistrations k key
    (s1.setCore k (s1.core k).vacate).discardCores key l

/-- The points that cores of a partition run, by ascending crew. -/
def State.crewsOf (s : State) (p : Nat) : List Point :=
  ((s.runners p).filterMap fun k => (s.core k).point.map fun x => { x with rank := 0 }).eraseDups

/-- Cores of a crew that run its point: a context that was killed has left it (R361). -/
def State.crewAt (s : State) (x : Point) : List Nat := (crewCores x.kind x.base).filter fun k => s.runsPoint x.recNo x.serial k

/-- The point is RESUME: a core of its crew has taken an action of R135 (R374), and its record has not failed (R348). -/
def State.resumes (s : State) (x : Point) : Bool :=
  (s.record x.recNo).state == .active && s.current x && (s.crewAt x).any fun k => (s.core k).committed

/-- A RESTART point is cancelled (R135, R351, R356); a point of a FAULTED record ends. -/
def State.cancelPoint (s : State) (x : Point) : State :=
  let s1 := s.discardCores (x.recNo, x.serial) (s.crewAt x)
  let r := s1.record x.recNo
  match if s.current x then r.fired x.serial else none with
  | some f => s1.setRecord x.recNo (r.cancel f)
  | none => s1

/-- Cancels the points of a list that are not RESUME. -/
def State.cancelPoints (s : State) : List Point → State
  | [] => s
  | x :: l => (if s.resumes x then s else s.cancelPoint x).cancelPoints l

/-- ACTIVE records of a partition. -/
def State.activeRecords (s : State) (p : Nat) : Tbl Record := s.records.filter fun x => x.2.part == p && x.2.state == .active

/-- SAVE_STOPPED (R372, step 3): lamps pass, points are classed, RESTART points are cancelled. The records as they stand at
the cut are kept for their save records. -/
def execSaveStopped (part : Nat) (s : State) : Out :=
  let b := s.pcb part
  if b.saving && !b.saveStopped && s.allStopped part then
    let l := s.runners part
    let s1 := (((s.recordCompletions s.completions).holdAll l).passLamps (l ++ l)).withdrawAll l
    let cut : Save := ⟨[], [], s1.activeRecords part, 0⟩
    let s2 := s1.cancelPoints (s1.crewsOf part)
    .next { s2.setPcb part { s2.pcb part with saveStopped := true } with saves := tput s2.saves part cut }
  else .next s

/-! ### Bytes of images and records (R375 to R380) -/

/-- Words as bytes, little-endian (R177). -/
def wordBytes (l : List Nat) : List Byte := l.flatMap (leBytes 8)

/-- Bytes followed by zeros up to a length. -/
def padTo (n : Nat) (l : List Byte) : List Byte := l ++ List.replicate (n - l.length) 0

/-- The next multiple of 64. -/
def up64 (n : Nat) : Nat := (n + 63) / 64 * 64

/-- A seal block (R377) for some bytes. -/
def sealBlock (saveNo : Nat) (l : List Byte) : List Byte := padTo 64 (leBytes 8 (crc32c l + 2 ^ 32 * (saveNo % 2 ^ 31) + 2 ^ 63))

/-- The bytes carry a valid seal of a save (R377, R383). -/
def sealedBytes (saveNo : Nat) (l : List Byte) : Bool :=
  let body := l.take (l.length - 64)
  let w := leNat ((l.drop (l.length - 64)).take 8)
  decide (64 ≤ l.length) && w / 2 ^ 63 == 1 && w % 2 ^ 32 == crc32c body && w / 2 ^ 32 % 2 ^ 31 == saveNo

/-- A held ticket as an image holds it (R375). -/
def ticketWord (t : Nat × Nat) : Nat := 2 ^ 63 + 2 ^ 32 * (t.1 % 512) + t.2 % 2 ^ 32

/-- A stream's 512 bytes (R375), its call stack from the oldest entry on (log 15). -/
def Stream.imageBytes (x : Stream) : List Byte :=
  let regs := (List.range 32).map fun n => if n = 0 then 0 else (x.regs.toList.getD n 0).toNat
  let stack := (List.range 8).map fun n => x.stack.reverse.getD n 0
  let rest := [x.stack.length, (packPos x.pos.hdr x.pos.off).toNat, x.repWord.toNat, x.seq.toNat, x.pace.toNat, x.rlabel]
  padTo 512 (wordBytes (regs ++ stack ++ rest ++ (x.tickets.take 4).map ticketWord))

/-- A held trap as 32 bytes (log 15). -/
def TrapRec.words (t : TrapRec) : List Nat := [t.cause + 256 * t.stream.num, t.info.toNat, (packPos t.hdr t.off).toNat, t.seq.toNat]

/-- A pending CARVE (R375); of several, which R375 has no room for, the first (log 73). -/
def carveBits : List CarveReq → Nat
  | [] => 0
  | q :: _ => q.count % 64 + 2 ^ 6 * (q.phaser % 512) + 2 ^ 15 * (q.phase % 2 ^ 32) + 2 ^ 47

/-- The core section, 512 bytes (R375). -/
def Core.coreBytes (c : Core) (win : Option (Vector Word 8)) : List Byte :=
  let held := ((c.raised.toList ++ streamIds.filterMap fun st => (c.stream st).held).take 3).flatMap TrapRec.words
  let traps := padTo 128 (wordBytes ([c.trapcause.toNat, c.trapinfo.toNat, c.trappc.toNat, c.trapseq.toNat] ++ held))
  let misc := padTo 64 (wordBytes [c.tround.toNat, c.tsrb, c.tclamp.toNat, c.events.toNat, c.gen.toNat, carveBits c.carve])
  padTo 512 (traps ++ misc ++ (match win with | some v => wordBytes (v.toList.map BitVec.toNat) | none => []))

/-- Bytes whose packing the spec leaves open (log 15). -/
def openBytes (from' n : Nat) : List Byte := (List.range n).map fun i => Config.imagePacking (from' + i)

/-- Bytes of the accumulator scan image (R375). -/
def scanBytes : Nat := 294912

/-- The index list of the claimed copy as 128 INT32 elements (R375). -/
def Core.listBytes (c : Core) : List Byte :=
  padTo 512 (((c.copies.filter Copy.started).flatMap fun p => p.index.flatMap fun i => leBytes 4 (i % 2 ^ 32).toNat).take 512)

/-- The matrix section: the TM words, zero under recompute, then the drain shapes (R375, log 15). -/
def matrixBytes (scan : Bool) (draw : Nat) : List Byte :=
  (if scan then openBytes draw 32 else List.replicate 32 0) ++ openBytes (draw + 32) 32

/-- Bytes of an image before its seal block: header, streams, core, array, hoist, matrix, descriptors, tiles, scan image (R375,
R376). `draw` numbers its free values. -/
def SavedImage.body (i : SavedImage) (draw : Nat) : List Byte :=
  let c := i.image
  let n := c.ntiles
  let header := padTo 256 (wordBytes
    [1 + 2 ^ 16 * Config.stepping.toNat + 2 ^ 24 * i.core + 2 ^ 35 * i.recNo + 2 ^ 47 * bit i.scan + 2 ^ 48 * bit c.lampWant +
      2 ^ 49 * bit i.win.isSome + 2 ^ 50 * n, i.serial % 2 ^ 48, i.length, i.saveNo])
  let array := padTo 256 (wordBytes (c.savedPars.toList.map BitVec.toNat)) ++ openBytes draw 2048 ++
    padTo 768 (wordBytes ((List.range 32).flatMap fun p => [(c.panel p).rowGen.toNat, (c.panel p).colGen.toNat]))
  let descs := padTo 256 (wordBytes ((List.range n).map fun t => (c.tile t).desc.toNat))
  let tiles := (List.range n).flatMap fun t => trun 0 (c.tile t).data 0 32768
  header ++ (streamIds.flatMap fun st => (c.stream st).imageBytes) ++ c.coreBytes i.win ++ array ++
    openBytes (draw + 2048) 1024 ++ c.listBytes ++ matrixBytes i.scan (draw + 3072) ++ descs ++ tiles ++
    (if i.scan then (List.range scanBytes).map (Config.scanImage (word draw)) else [])

/-- Length of an image (R375). -/
def imageLength (tiles : Nat) (scan : Bool) : Nat := 7808 + 32768 * tiles + (if scan then scanBytes else 0)

/-- The locator of an image (R378): an offset in a cluster's shadow area, or from SAVEBASE. -/
def SavedImage.locator (i : SavedImage) : Nat :=
  match i.shadow with
  | some k => i.offset + 2 ^ 24 * k
  | none => i.offset + 2 ^ 63

/-- First image of a point, if it is RESUME. -/
def firstImage (l : List SavedImage) (n serial : Nat) : Option SavedImage := l.find? fun i => i.recNo == n && i.serial == serial

/-- Images of a point. -/
def imagesOf (l : List SavedImage) (n serial : Nat) : Nat := (l.filter fun i => i.recNo == n && i.serial == serial).length

/-- An in-flight entry of a face save record (R378). -/
def Record.faceEntry (r : Record) (n : Nat) (l : List SavedImage) (f : Fired) : List Nat :=
  let i := firstImage l n f.serial
  [f.coords.getD r.sweep 0 % 2 ^ 24 + 2 ^ 24 * f.line, f.serial,
    f.crew.getD 0 + 2 ^ 11 * bit i.isSome + 2 ^ 12 * imagesOf l n f.serial,
    match i with | some x => x.locator | none => 0]

/-- Points in flight of a record at the cut, in serial order. -/
def Record.inFlight (r : Record) : List Fired := r.points.filter fun f => f.started && !f.ended

/-- A face save record before its seal (R378): the record as it stood at the cut, and the images of its points. -/
def Record.faceBytes (r : Record) (n : Nat) (l : List SavedImage) : List Byte :=
  let header := padTo 64 (wordBytes
    [n + 2 ^ 12 * r.state.code + 2 ^ 15 * (r.dims - 1) + 2 ^ 17 * r.sweep + 2 ^ 19 * r.lines + 2 ^ 32 * r.inFlight.length,
      (r.word 5).toNat, (r.word 6).toNat, r.nser % 2 ^ 48])
  let heights := (List.range r.lines).flatMap fun i => leBytes 4 (tget 0 r.heights i % 2 ^ 24)
  header ++ padTo (up64 (4 * r.lines)) heights ++ wordBytes (r.inFlight.flatMap (r.faceEntry n l))

/-- A range save record before its seal (R379), of the record once RESTART points are cancelled. -/
def Record.rangeBytes (r : Record) (n : Nat) (l : List SavedImage) : List Byte :=
  let run := r.inFlight.filter fun f => (firstImage l n f.serial).isSome
  let pairs (x : List (Nat × Nat)) : List Nat := x.flatMap fun i => [i.1, i.2]
  let entry (f : Fired) : List Nat :=
    [f.crew.getD 0 + 2 ^ 11 * f.intervals.length, f.serial, f.cur, f.stop,
      (match firstImage l n f.serial with | some x => x.locator | none => 0), 0, 0, 0] ++ pairs f.intervals
  wordBytes ([n + 2 ^ 12 * r.state.code + 2 ^ 16 * run.length + 2 ^ 32 * r.returned.length, r.lo, r.hi, r.grain, r.nser, 0, 0, 0] ++
    pairs r.returned ++ run.flatMap entry)

/-! ### Writing and reading the save area (R370, R377, R385) -/

/-- Writes bytes of space 4 in pieces of at most 64 KiB; false where one of them faults. -/
def State.writeLong (s : State) (cl part va : Nat) : Nat → List Byte → State × Bool
  | 0, bs => (s, bs.isEmpty)
  | fuel + 1, bs =>
    let n := 65536 - va % 65536
    if bs.isEmpty then (s, true)
    else
      match s.writeVirtual cl part va (bs.take n) with
      | (s1, some _) => (s1, false)
      | (s1, none) => s1.writeLong cl part (va + n) fuel (bs.drop n)

/-- Reads bytes of space 4 in pieces of at most 64 KiB; none where one of them faults or meets an uncorrectable error (R383,
R386). -/
def State.readLong (s : State) (cl part va : Nat) : Nat → Nat → State × Option (List Byte)
  | 0, n => (s, if n = 0 then some [] else none)
  | fuel + 1, n =>
    let m := min n (65536 - va % 65536)
    if n = 0 then (s, some [])
    else
      match s.readChecked cl part va m with
      | (s1, .error _) => (s1, none)
      | (s1, .ok (_, true)) => (s1, none)
      | (s1, .ok (bs, false)) =>
        match s1.readLong cl part (va + m) fuel (n - m) with
        | (s2, some l) => (s2, some (bs ++ l))
        | (s2, none) => (s2, none)

/-- Writes sealed bytes (R377): the seal slot zero first, then the body, the seal last. -/
def State.writeSealed (s : State) (p va : Nat) (body : List Byte) : State × Bool :=
  let b := s.pcb p
  let put (s : State) (va : Nat) (l : List Byte) : State × Bool := s.writeLong b.firstCluster p va (l.length / 65536 + 2) l
  match put s (va + body.length) (List.replicate 64 0) with
  | (s1, false) => (s1, false)
  | (s1, true) =>
    match put s1 va body with
    | (s2, false) => (s2, false)
    | (s2, true) => put s2 (va + body.length) (sealBlock b.saveNo body)

/-- Reads sealed bytes of the partition's save (R383): none where a read faults or the seal does not hold. -/
def State.readSealed (s : State) (p va n : Nat) : State × Option (List Byte) :=
  let b := s.pcb p
  match s.readLong b.firstCluster p va (n / 65536 + 2) n with
  | (s1, some l) => (s1, if sealedBytes b.saveNo l then some l else none)
  | (s1, none) => (s1, none)

/-! ### Placing images (R375) -/

/-- The image of one core of a RESUME point. The lower twin's image carries the windows, or the upper twin's where the lower is
not RESUME. -/
def State.makeImage (s : State) (x : Point) (k : Nat) (shadow : Option Nat) (offset : Nat) : SavedImage :=
  let c := s.core k
  let twin := (s.core (twinOf k)).point.isSome && (s.core (twinOf k)).part == c.part
  { core := k, recNo := x.recNo, serial := x.serial, shadow := shadow, offset := offset, length := imageLength c.ntiles x.scan,
    saveNo := (s.pcb c.part).saveNo, scan := x.scan, sound := true, image := c,
    win := if k % 2 = 0 ∨ twin = false then some (s.shaft (shaftOf k)).win else none }

/-- The images of a crew, one after another from an offset on. -/
def State.makeImages (s : State) (x : Point) (shadow : Option Nat) : Nat → List Nat → List SavedImage
  | _, [] => []
  | off, k :: l =>
    let i := s.makeImage x k shadow off
    i :: s.makeImages x shadow (off + up64 i.length) l

/-- Bytes a crew's images take, each from a multiple of 64 on. -/
def State.crewBytes (s : State) (x : Point) : Nat :=
  ((s.crewAt x).map fun k => up64 (imageLength (s.core k).ntiles x.scan)).foldl (· + ·) 0

/-- Places the images of crews: all of a crew in its cluster's shadow area while they fit, else all in device memory from `off`
on. Answers the images and the next free offset. -/
def State.placeImages (s : State) (shadowSize : Nat) : Tbl Nat → Nat → List Point → List SavedImage × Nat
  | _, off, [] => ([], off)
  | used, off, x :: l =>
    let k := clusterOf x.base
    let at' := tget 0 used k
    let n := s.crewBytes x
    let crew := s.crewAt x
    if at' + n ≤ shadowSize then
      let r := s.placeImages shadowSize (tput used k (at' + n)) off l
      (s.makeImages x (some k) at' crew ++ r.1, r.2)
    else
      let r := s.placeImages shadowSize used (off + n) l
      (s.makeImages x none off crew ++ r.1, r.2)

/-! ### Losing contexts and resetting a partition (R383, R385) -/

/-- The saved streams of lost images: their registrations are dropped and their tickets void (R361, log 24). -/
def State.dropImages (s : State) : List SavedImage → State
  | [] => s
  | i :: l => ((s.voidTickets i.core i.image.heldTickets).dropRegistrations i.core (i.recNo, i.serial)).dropImages l

/-- A record whose context is lost: FAULTED, with one kind-5 entry, and LOST is set (R383, R385). -/
def State.loseRecord (s : State) (p n : Nat) (images : List SavedImage) : State :=
  let mine := images.filter fun i => i.recNo == n
  let first := (mine.head?.map fun i => (i.core, i.serial)).getD (0, 0)
  let s1 := s.dropImages mine
  let r := s1.record n
  let s1 := if r.state.live then s1.setRecord n { r with state := .faulted, points := r.points.filter fun f => f.ended } else s1
  let s2 := s1.setPcb p { s1.pcb p with isLost := true }
  s2.report p (mkReport 5 p n first.1 0 0 0 first.2)

/-- Records whose contexts are lost. -/
def State.loseRecords (s : State) (p : Nat) (images : List SavedImage) : List Nat → State
  | [] => s
  | n :: l => (s.loseRecord p n images).loseRecords p images l

/-- A record of a partition that is reset (R385). -/
def State.resetRecord (s : State) (p n : Nat) : State :=
  let r := s.record n
  if r.state.live then
    let s1 := s.setRecord n { r with state := .faulted, points := [] }
    match r.inFlight.head? with
    | some f => s1.report p (mkReport 5 p n (f.crew.getD 0) 0 0 0 f.serial)
    | none => s1
  else s

/-- Records of a partition that is reset. -/
def State.resetRecords (s : State) (p : Nat) : List Nat → State
  | [] => s
  | n :: l => (s.resetRecord p n).resetRecords p l

/-- Images in shadow banks that are zeroed hold no seal any more (R332, R383). -/
def Save.zeroShadow (v : Save) : Save := { v with images := v.images.map fun i => if i.shadow.isSome then { i with sound := false } else i }

/-- The reset of a partition (R385): its cores halt, steps 1 to 3 of R332 are performed, its live records fail. A save in progress
is given up. -/
def State.resetPartition (s : State) (p : Nat) : State :=
  let b := s.pcb p
  let s1 := (s.abandonAll b.coreList).freshPartition p
  let s2 := s1.resetRecords p b.slice
  let saves := if b.saving then terase s2.saves p else s2.saves.map fun x => (x.1, if x.1 = p then x.2.zeroShadow else x.2)
  { s2.setPcb p { s2.pcb p with saving := false, saveStopped := false, isLost := true } with saves := saves }

/-- SAVE_DEADLINE (R385). -/
def execSaveDeadline (part : Nat) (s : State) : Out :=
  let p := part % 128
  .next (if (s.pcb p).saving then s.resetPartition p else s)

/-- Resets of the partitions that an uncorrectable error was found in (R386, log 75). -/
def State.resetAll (s : State) : List Nat → State
  | [] => s
  | p :: l => (if (s.pcb p).formed then s.resetPartition p else s).resetAll l

/-- The resets that are due take place. -/
def State.takeResets (s : State) : State := ({ s with resetDue := [] }).resetAll s.resetDue

/-- UNCORRECTABLE_ERROR (R386): the partition that owns the data is reset. -/
def execUncorrectableError (part : Nat) (s : State) : Out :=
  let p := part % 128
  .next (if (s.pcb p).formed then s.resetPartition p else s)

/-! ### The end of a save (R372, steps 4 and 5) -/

/-- Writes the images, those in shadow banks at the charge of cluster SRAM (R409); the records whose write failed. With no save area each of them is lost
(R387). -/
def State.writeImages (s : State) (p : Nat) (lost : List Nat) : List SavedImage → State × List Nat
  | [] => (s, lost)
  | i :: l =>
    let base := (s.pcb p).saveBase
    if i.shadow.isSome then (s.chargeTag (s.pcb p).tag (200 * i.length)).writeImages p lost l
    else if lost.contains i.recNo then s.writeImages p lost l
    else if base = 0 then s.writeImages p (lost ++ [i.recNo]) l
    else
      match s.writeSealed p (base + i.offset) (i.body s.draws) with
      | (s1, true) => ({ s1 with draws := s1.draws + 8192 }).writeImages p lost l
      | (s1, false) => ({ s1 with draws := s1.draws + 8192 }).writeImages p (lost ++ [i.recNo]) l

/-- Save records of the launches (R378, R379): number, RANGE, bytes before the seal. -/
def State.saveRecords (s : State) (cut : Tbl Record) (images : List SavedImage) : List (Nat × Bool × List Byte) :=
  (cut.filter fun x => (s.record x.1).state == .active).map fun x =>
    (x.1, x.2.isRange,
      if x.2.isRange then (s.record x.1).rangeBytes x.1 images else x.2.faceBytes x.1 images)

/-- Writes save records from an offset on; what was written, and the records whose write failed. -/
def State.writeRecords (s : State) (p off : Nat) (lost : List Nat) :
    List (Nat × Bool × List Byte) → State × List (Nat × Bool × Nat) × List Nat × Nat
  | [] => (s, [], lost, off)
  | (n, range, body) :: l =>
    let base := (s.pcb p).saveBase
    let next := off + up64 (body.length + 64)
    if lost.contains n then s.writeRecords p next lost l
    else if base = 0 then
      let r := s.writeRecords p next lost l
      (r.1, (n, range, off) :: r.2.1, r.2.2)
    else
      match s.writeSealed p (base + off) body with
      | (s1, false) => s1.writeRecords p next (lost ++ [n]) l
      | (s1, true) =>
        let r := s1.writeRecords p next lost l
        (r.1, (n, range, off) :: r.2.1, r.2.2)

/-- The directory before its seal (R380). -/
def directoryBytes (records : List (Nat × Bool × Nat)) (used : Nat) : List Byte :=
  wordBytes ([records.length, used, 0, 0, 0, 0, 0, 0] ++ records.flatMap fun r => [r.1 + 2 ^ 12 * bit r.2.1, r.2.2])

/-- The saved cores become idle. -/
def State.vacateAll (s : State) : List SavedImage → State
  | [] => s
  | i :: l => (s.setCore i.core (s.core i.core).vacate).vacateAll l

/-- SAVE_COMPLETE (R372, steps 4 and 5): images of the points that step 3 classed RESUME, records and directory are written, those that fault are lost, and the save stands.
A fault of the directory resets the partition (R385), as does an uncorrectable error in the state read for an image (R386). -/
def execSaveComplete (part : Nat) (s : State) : Out :=
  let b := s.pcb part
  match tfind s.saves part with
  | none => .next s
  | some v =>
    if !(b.saving && b.saveStopped) then .next s
    else if (s.runners part).any (fun k => (s.core k).trapBad) then .next (s.resetPartition part)
    else
      let start := up64 (128 + 16 * v.saved.length)
      let placed := s.placeImages (524288 * b.shadow) [] start (s.crewsOf part)
      let w := s.writeImages part [] placed.1
      let r := w.1.writeRecords part placed.2 w.2 (w.1.saveRecords v.saved placed.1)
      let records := r.2.1
      let lost := r.2.2.1
      let used := if b.saveBase = 0 then 0 else r.2.2.2
      let d : State × Bool := if b.saveBase = 0 then (r.1, true) else r.1.writeSealed part b.saveBase (directoryBytes records used)
      if d.2 = false then .next (d.1.resetPartition part)
      else
        let s1 := (d.1.vacateAll placed.1).loseRecords part placed.1 lost
        let images := placed.1.filter fun i => !lost.contains i.recNo
        let kept : Save := ⟨images, records, v.saved, used⟩
        .next { s1.setPcb part { s1.pcb part with saved := true, saving := false, saveStopped := false } with
          saves := tput s1.saves part kept }

/-! ### Restore (R382 to R384) -/

/-- The error RESTORE is refused with, 0 where it is accepted (R371). -/
def Pcb.restoreError (b : Pcb) (session : Bool) : Nat :=
  if b.isSealed && !session then 4 else if !b.saved || b.saving || b.restoring then 2 else 0

/-- RESTORE, by the control block or in a session (R371, R382, step 1). -/
def State.hostRestore (s : State) (p : Nat) (session : Bool) : State :=
  let b := s.pcb p
  if b.restoreError session ≠ 0 then s.pcbErr p (b.restoreError session)
  else s.setPcb p { b with restoring := true, isLost := false, err := 0 }

/-- RESTORE (R371, R382, step 1). -/
def execRestore (part : Nat) (s : State) : Out := .next (s.hostRestore (part % 128) false)

/-- Accesses to the scratch of an image's core, whose size the restore changes, are in flight: by its count, or by a CARVE that is due
(R146, R147). The restored operations count as issued after that change, so it waits for all of them. -/
def State.countWaits (s : State) (i : SavedImage) : Bool :=
  s.resizing i.core || s.scratchBusy i.core s.order && (i.image.ntiles != (s.core i.core).ntiles ||
    i.image.carve.any fun q => q.count != i.image.ntiles && (s.phaser (clusterOf i.core) q.phaser).done q.phase)

/-- The crews named by RESUME entries are free, their clocks run (R404), and no carve-out of theirs has to wait (R146, R382). -/
def State.crewsFree (s : State) (v : Save) : Bool := v.images.all fun i => s.coreFree i.core && s.clocked i.core && !s.countWaits i

/-- The directory holds (R380, R383): its seal stands where its count says, within the bytes used. Without a save area there is none
to check. -/
def State.directoryOk (s : State) (p : Nat) (v : Save) : State × Bool :=
  let b := s.pcb p
  if v.used = 0 then (s, true)
  else
    match s.readLong b.firstCluster p b.saveBase 2 64 with
    | (s1, none) => (s1, false)
    | (s1, some h) =>
      let n := 128 + 16 * (leNat (h.take 8) % 4096)
      if leNat ((h.drop 8).take 8) < n then (s1, false)
      else
        match s1.readSealed p b.saveBase n with
        | (s2, some _) => (s2, true)
        | (s2, none) => (s2, false)

/-- Reads pairs of words. -/
def pairsOf (bs : List Byte) : Nat → List (Nat × Nat)
  | 0 => []
  | n + 1 => (leNat (bs.take 8), leNat ((bs.drop 8).take 8)) :: pairsOf (bs.drop 16) n

/-- RESUME entries of a range save record: serial, cur, end and intervals (R379). -/
def rangeEntries (bs : List Byte) : Nat → List (Nat × Nat × Nat × List (Nat × Nat))
  | 0 => []
  | n + 1 =>
    let w (i : Nat) : Nat := leNat ((bs.drop (8 * i)).take 8)
    let m := w 0 / 2 ^ 11 % 64
    (w 1, w 2, w 3, pairsOf (bs.drop 64) m) :: rangeEntries (bs.drop (64 + 16 * m)) n

/-- A point with its remainder and intervals as a range save record gives them. -/
def Fired.reload (f : Fired) (l : List (Nat × Nat × Nat × List (Nat × Nat))) : Fired :=
  match l.find? fun e => e.1 == f.serial with
  | some e => { f with cur := e.2.1, stop := e.2.2.1, nint := e.2.2.2.length, intervals := e.2.2.2 }
  | none => f

/-- RESUME entries of a face save record: serial, sweep coordinate, line and crew (R378). -/
def faceEntries (bs : List Byte) : Nat → List (Nat × Nat × Nat × Nat)
  | 0 => []
  | n + 1 =>
    let w (i : Nat) : Nat := leNat ((bs.drop (8 * i)).take 8)
    let rest := faceEntries (bs.drop 32) n
    if w 2 / 2 ^ 11 % 2 = 1 then (w 1, w 0 % 2 ^ 24, w 0 / 2 ^ 24 % 2 ^ 12, w 2 % 2 ^ 11) :: rest else rest

/-- A point in flight as its RESUME entry gives it; without one it is in flight no more (R378, R382). -/
def Record.reloadFace (r : Record) (es : List (Nat × Nat × Nat × Nat)) (f : Fired) : Option Fired :=
  if f.started then
    (es.find? fun e => e.1 == f.serial).map fun e =>
      { f with coords := (r.coordsOf e.2.2.1 e.2.1).map Int.toNat, line := e.2.2.1, crew := some e.2.2.2 }
  else some f

/-- A record reloaded from the bytes of its save record (R382, step 3): what it gives is taken from there, RESUME entries as in
flight. -/
def Record.reload (r : Record) (bs : List Byte) : Record :=
  let w (i : Nat) : Nat := leNat ((bs.drop (8 * i)).take 8)
  if r.isRange then
    let n := w 0 / 2 ^ 32 % 2 ^ 16
    let es := rangeEntries (bs.drop (64 + 16 * n)) (w 0 / 2 ^ 16 % 256)
    let kept := r.points.filter fun f => !f.started || f.ended || es.any fun e => e.1 == f.serial
    { r with nser := w 4, returned := pairsOf (bs.drop 64) n, points := kept.map fun f => f.reload es }
  else
    let es := faceEntries (bs.drop (64 + up64 (4 * r.lines))) (w 0 / 2 ^ 32 % 2 ^ 9)
    { r with
      nser := w 3 % 2 ^ 48,
      heights := (List.range r.lines).foldl (fun t i => tset 0 t i (leNat ((bs.drop (64 + 4 * i)).take 4) % 2 ^ 24)) [],
      points := r.points.filterMap (r.reloadFace es) }

/-- Bytes of the save record of a launch, seal block included, as the save laid it out. -/
def Save.recordLength (v : Save) (s : State) (n : Nat) : Nat :=
  let r := (tfind v.saved n).getD (s.record n)
  let rest := r.inFlight.filter fun f => (firstImage v.images n f.serial).isNone
  64 + (if r.isRange then (r.cancelAll rest).rangeBytes n v.images else r.faceBytes n v.images).length

/-- Checks save records and reloads the ACTIVE records they belong to; those refused. -/
def State.reloadRecords (s : State) (p : Nat) (v : Save) : List (Nat × Bool × Nat) → State × List Nat
  | [] => (s, [])
  | (n, _, off) :: l =>
    if v.used = 0 then s.reloadRecords p v l
    else
      match s.readSealed p ((s.pcb p).saveBase + off) (v.recordLength s n) with
      | (s1, none) =>
        let r := s1.reloadRecords p v l
        (r.1, n :: r.2)
      | (s1, some bs) =>
        let x := s1.record n
        let same : Bool := (tfind v.saved n).any fun y => y.arming == x.arming
        (if x.state = .active ∧ same then s1.setRecord n (x.reload bs) else s1).reloadRecords p v l

/-- A stream as its section of an image gives it (R365, R375). Its held tickets were in force all along (R372). -/
def Stream.loaded (x : Stream) (bs : List Byte) : Stream :=
  let w (n : Nat) : Word := word (leNat ((bs.drop (8 * n)).take 8))
  let y := { x with
    regs := Vector.ofFn fun n : Fin 32 => if n.val = 0 then 0 else w n.val,
    stack := ((List.range (min 8 (w 40).toNat)).map fun n => (w (32 + n)).toNat % 2 ^ 57).reverse,
    seq := w 43, pace := (w 44).setWidth 16, rlabel := (w 45).toNat % 2 ^ 57 }
  if w 41 = packPos x.pos.hdr x.pos.off ∧ w 42 = x.repWord then y else (y.setSpos (w 41)).setSrep (w 42)

/-- A tile as its descriptor and its data in an image give it (R58, R375). -/
def Tile.loaded (t : Tile) (desc : Nat) (bs : List Byte) : Tile :=
  { t with
    fmt := desc % 8, rows1 := desc / 2 ^ 3 % 2 ^ 7, cols1 := desc / 2 ^ 10 % 2 ^ 7, full := bitAt (word desc) 17,
    ov := bitAt (word desc) 18, nv := bitAt (word desc) 19, sat := bitAt (word desc) 20, fz := bitAt (word desc) 21,
    data := (numbered 0 bs).filter fun x => x.2 != 0 }

/-- Tiles of a core from an image. -/
def Core.loadTiles (c : Core) (bs : List Byte) : List Nat → Core
  | [] => c
  | t :: l =>
    (c.setTile t ((c.tile t).loaded (leNat ((bs.drop (0x1D40 + 8 * t)).take 8)) ((bs.drop (0x1E40 + 32768 * t)).take 32768))).loadTiles bs l

/-- Generators of the panels from an image. -/
def Core.loadGens (c : Core) (bs : List Byte) : List Nat → Core
  | [] => c
  | p :: l =>
    let w (a : Nat) : Word := word (leNat ((bs.drop (0x1400 + 16 * p + a)).take 8))
    (c.setPanel p { c.panel p with rowGen := w 0, colGen := w 8 }).loadGens bs l

/-- A core as an image gives it wherever R375 states a place; operations, held traps and the scan image, whose packing it leaves
open, are as they were written (log 15). -/
def Core.loaded (c : Core) (bs : List Byte) : Core :=
  let w (a : Nat) : Word := word (leNat ((bs.drop a).take 8))
  let carve := (w 0x9A8).toNat
  let c1 := { c with
    strC := c.strC.loaded (bs.drop 0x100), strT := c.strT.loaded (bs.drop 0x300), strA := c.strA.loaded (bs.drop 0x500),
    strH := c.strH.loaded (bs.drop 0x700),
    trapcause := w 0x900, trapinfo := w 0x908, trappc := w 0x910, trapseq := w 0x918,
    tround := (w 0x980).setWidth 2, tsrb := max 1 (min 32 (w 0x988).toNat), tclamp := (w 0x990).setWidth 32,
    events := (w 0x998).setWidth 32, gen := w 0x9A0,
    carve := match c.carve with
      | q :: l => if carve / 2 ^ 47 % 2 = 1 then
          { q with count := carve % 64, phaser := carve / 2 ^ 6 % 512, phase := carve / 2 ^ 15 % 2 ^ 32 } :: l else l
      | [] => [],
    ap := Vector.ofFn fun n : Fin 24 => if n.val = 22 then 0 else w (0xB00 + 8 * n.val) }
  (c1.loadTiles bs (List.range c.ntiles)).loadGens bs (List.range 32)

/-- What the check of one image finds (R383): whether it holds, and the image as its bytes give it. -/
def State.checkImage (s : State) (p : Nat) (i : SavedImage) : State × Option SavedImage :=
  let b := s.pcb p
  match i.shadow with
  | some _ => (s.chargeTag (s.pcb p).tag (200 * i.length), if i.sound && i.saveNo == b.saveNo then some i else none)
  | none =>
    match s.readSealed p (b.saveBase + i.offset) i.length with
    | (s1, none) => (s1, none)
    | (s1, some bs) =>
      let win := i.win.map fun _ => Vector.ofFn fun n : Fin 8 => word (leNat ((bs.drop (0x9C0 + 8 * n.val)).take 8))
      (s1, if i.scan && leNat ((bs.drop 2).take 1) != Config.stepping.toNat then none
        else some { i with image := i.image.loaded bs, win := win })

/-- What the checks of images find: those that hold, and the records of those refused. -/
structure Checked where
  next : State
  images : List SavedImage
  refused : List Nat

/-- Checks the images (R383). -/
def State.checkImages (s : State) (p : Nat) : List SavedImage → Checked
  | [] => ⟨s, [], []⟩
  | i :: l =>
    let x := s.checkImage p i
    let r := x.1.checkImages p l
    match x.2 with
    | some j => { r with images := j :: r.images }
    | none => { r with refused := i.recNo :: r.refused }

/-- The point of an image is in flight in its record still. -/
def State.imageAlive (s : State) (i : SavedImage) : Bool :=
  ((s.record i.recNo).fired i.serial).isSome && i.image.point.all s.current

/-- Tiles that discarded TM instructions had claimed are released unchanged (R136). -/
def Core.unclaimAll (c : Core) : List Use → Core
  | [] => c
  | u :: us =>
    let x := (c.tile u.tile).unclaim u
    (c.setTile u.tile (if x.claimed then x else { x with full := x.override.getD x.full, override := none })).unclaimAll us

/-- The recompute policy (R136, log 74): the accumulators are at +0 with clear status and the drain shape of a reset, which goes with
them (R231), and the T stream runs again from its last RLABEL, or its entry block, unless it had ended with nothing in
the matrix unit. -/
def Core.recompute (c : Core) (r : Record) : Core :=
  let c1 := c.unclaimAll ((c.mat.filter fun m => m.started).flatMap fun m => matUses m.instr)
  let t := c1.strT
  let again := if t.rlabel = 0 then r.entry .t else t.rlabel
  { c1 with
    mat := [], m0 := Accum.reset, m1 := Accum.reset,
    strT := if t.ended && c.mat.isEmpty then t else { t with ended := false, pos := Pos.enter again } }

/-- A stream that stood inside a block enters it again with its count (R76, R365). -/
def Stream.resume (x : Stream) : Stream := { x with pos := { x.pos with entry := if x.pos.entry = .inside then .resumed else x.pos.entry } }

/-- A panel under the s_w of an operation that issued before a save: what has been written since applies again once the operation has
completed (R339, log 93). -/
def Panel.keptScale (p : Panel) (active : Bool) (sw : BitVec 32) : Panel :=
  if active && p.sw != sw then { p with sw := sw, pendingSw := some (p.pendingSw.getD p.sw) } else p

/-- A saved context on its core (R375, R382): the core's array bytes outside the image, its privileged registers and its panels are the
core's own; the generators of the panels are the image's (R137), and a panel with an operation of the image goes on with the s_w that
the operation issued under (R339). -/
def Core.restored (now : Core) (i : SavedImage) (r : Record) (layouts : List (BitVec 512)) : Core :=
  let c := if i.scan then i.image else i.image.recompute r
  let gens (p : Panel) (n : Nat) : Panel := { p.keptScale (c.panelActive n) (c.panel n).sw with rowGen := (c.panel n).rowGen, colGen := (c.panel n).colGen }
  { c with
    strC := c.strC.resume, strT := c.strT.resume, strA := c.strA.resume, strH := c.strH.resume,
    point := c.point.map fun p => { p with layouts := layouts },
    halted := false, halting := false, failed := false, trapBad := now.trapBad, priv := false, stop := false, frozen := now.frozen,
    carve := c.carve ++ now.carve,
    hregs := now.hregs, hstack := [], hpos := now.hpos, trapvec := now.trapvec, wdog := now.wdog, lampmax := now.lampmax,
    partition := now.partition, ticks := now.ticks, cycle := now.cycle, ntiles := now.ntiles, resized := none, scratch := now.scratch, scratchFull := now.scratchFull, scratchBad := now.scratchBad,
    cache := now.cache, spares := now.spares, panels := now.panels.map fun x => (x.1, gens x.2 x.1) }

/-- The lamp of a restored shaft is FREE; requests that wait are granted in their order (R384). -/
def State.freeLamp (s : State) (n : Nat) : State :=
  (s.setShaft n { (s.shaft n).endBoth with lower := false, upper := false }).grant n

/-- Loads one image (R382, step 4): the carve-out first, then the context and the windows it carries. -/
def State.loadImage (s : State) (i : SavedImage) : State :=
  let k := i.core
  let s1 := (s.freeLamp (shaftOf k)).startCount k i.image.ntiles
  let r := s1.record i.recNo
  let x := s1.snapshot r
  let s2 := x.1.setCore k ((x.1.core k).restored i r x.2)
  match i.win with
  | some w => s2.setShaft (shaftOf k) { s2.shaft (shaftOf k) with win := w }
  | none => s2

/-- Loads images. -/
def State.loadImages (s : State) : List SavedImage → State
  | [] => s
  | i :: l => (s.loadImage i).loadImages l

/-- What comes before any stream of a core resumes: a trap that was raised before the save, the pending CARVEs, then the held trap that
comes first (R147, R366, R372). -/
def State.resumeCores (s : State) : List SavedImage → State
  | [] => s
  | i :: l =>
    let s1 := (s.enterTrap i.core).catchUp [i.core]
    let c := s1.core i.core
    (if c.raised.isNone && !c.priv && c.firstHeld.isSome then s1.returnTrap i.core else s1).resumeCores l

/-- Shafts of the partition with neither twin RESUME read their windows as 0 (R375), but for one that runs another point by now (log
24). -/
def State.zeroWindows (s : State) (p : Nat) (v : Save) : State :=
  s.clearWindows ((s.pcb p).coreList.filter fun k =>
    k % 2 == 0 && (!v.images.any fun i => shaftOf i.core == shaftOf k) && (s.core k).point.isNone && (s.core (twinOf k)).point.isNone)

/-- RESTORE_COMPLETE (R382, R383): once the crews are free, everything is checked, records are reloaded, images loaded, and what is
refused is lost. -/
def execRestoreComplete (part : Nat) (s : State) : Out :=
  let b := s.pcb part
  match tfind s.saves part with
  | none => .next s
  | some v =>
    if !b.restoring || s.crewsFree v = false then .next s
    else
      let d := s.directoryOk part v
      let r := if d.2 then d.1.reloadRecords part v v.records else (d.1, v.records.map fun x => x.1)
      let c := if d.2 then r.1.checkImages part v.images else ⟨r.1, [], v.images.map fun i => i.recNo⟩
      let lost := (r.2 ++ c.refused).eraseDups
      let good := c.images.filter fun i => !lost.contains i.recNo && c.next.imageAlive i
      let gone := v.images.filter fun i => !lost.contains i.recNo && !c.next.imageAlive i
      let s1 := ((c.next.dropImages gone).loseRecords part v.images lost).zeroWindows part v
      let s2 := (s1.loadImages good).resumeCores good
      let b2 := s2.pcb part
      .next { s2.setPcb part { b2 with saved := false, restoring := false, isLost := b2.isLost || !d.2 } with saves := terase s2.saves part }

end Sys2Proof.Machine
end

