-- ==== Sys2Proof/Machine/Power.lean ====
section
/-! DEFINITION. Power, heat and the lamp room: rails and clocks, limits, sprints, temperatures (R131, R134, R387, R403 to
R411). -/

namespace Sys2Proof.Machine

/-! ### Rails, clocks and limits (R403, R404, R411) -/

/-- Clock ceiling of a logic rail in mV; none outside the settable steps (R403). -/
def clockCeiling (v : Nat) : Option Nat :=
  if v < 550 ∨ 850 < v ∨ v % 10 ≠ 0 then none
  else if v < 600 then some 900
  else if v < 700 then some 1400
  else if v < 800 then some 1800
  else some 2100

/-- A pair VSET, FSET is accepted (R403, R411). -/
def clockOk (v f : Nat) : Bool :=
  match clockCeiling v with
  | some m => decide (900 ≤ f ∧ f ≤ m)
  | none => false

/-- A cluster on a rail and clock that have taken effect (log 9). -/
def Cluster.runAt (c : Cluster) (v f : Nat) : Cluster := { c with vset := v, vnow := v, fset := f, fnow := f }

/-- The rail and clock that a cluster is to have, in force once its rail is trimmed (R403, R411, R419). -/
def Cluster.runSet (c : Cluster) (v f : Nat) : Cluster := if c.trimmed then c.runAt v f else { c with vset := v, fset := f }

/-- CLPWR_WRITE (R403, R411): a refused write leaves ERR 3 and changes nothing. RGAP clears by writing one. -/
def execClpwrWrite (cluster : Nat) (value : Word) (s : State) : Out :=
  let n := cluster % 128
  let c := s.cluster n
  let v := field value 0 10
  let f := field value 22 12
  .next
    (if s.fwstat ≠ 0 then s
    else if clockOk v f then
      { s.setCluster n { c.runSet v f with rgap := c.rgap && !bitAt value 46, pacemin := field value 48 16 } with lrErr := 0 }
    else { s with lrErr := 3 })

/-- Grants what can be granted on every shaft of a list, the lowest first (R405). -/
def State.grantEach (s : State) : List Nat → State
  | [] => s
  | n :: l => (s.grant n).grantEach l

/-- Grants what can be granted on any shaft. -/
def State.grantAll (s : State) : State := s.grantEach (s.shafts.map fun x => x.1)

/-- LRCTL_WRITE (R411): limits outside their ranges are refused with ERR 3. -/
def execLrctlWrite (value : Word) (s : State) : Out :=
  let a := field value 0 16
  let b := field value 16 16
  .next
    (if s.fwstat ≠ 0 then s
    else if 500 ≤ a ∧ a ≤ 1500 ∧ a ≤ b ∧ b ≤ 1900 then
      ({ s with psust := a, psprint := b, spen := bitAt value 32, lrErr := 0 }).grantAll
    else { s with lrErr := 3 })

/-- RAIL_GAP (R404): the clock stops, RGAP is set, a log entry of kind 8 is written. -/
def execRailGap (cluster : Nat) (s : State) : Out :=
  let n := cluster % 128
  .next ((s.setCluster n { s.cluster n with stopped := true, rgap := true }).logHost 8 0 n true)

/-- RAIL_GAP_RESTORED (R404): the clock runs again, the cores follow the phases of device phasers that completed meanwhile, and take a stop
that they were asked for (R372). -/
def execRailGapRestored (cluster : Nat) (s : State) : Out :=
  let n := cluster % 128
  let l := (List.range 16).map (16 * n + ·)
  let s1 := s.setCluster n { s.cluster n with stopped := false }
  .next ((s1.catchUp l).takeStops l)

/-! ### Sprints (R131, R134, R405) -/

/-- LAMPMAX_EXPIRY (R131): the twin has waited %lampmax cycles, and the holder gives the lamp up; cycles in which the clock stands do
not count (R404, R407). Calibration, which holds it in the
manner of a core of the lower level, asks again for what it has still to do; where it is calibration that has waited, the event
names the lower core, and either twin gives the lamp up (R420). -/
def execLampmaxExpiry (core : Nat) (s : State) : Out :=
  let k := core % 2048
  let n := shaftOf k
  .next
    (if s.clocked k = false then s
    else if (s.shaft n).reqs.contains k then
      (if (s.shaft n).cal then (s.freeCal n).askCal n
      else if s.holdsLamp (twinOf k) then s.loseLamp (twinOf k)
      else s)
    else if k % 2 = 0 ∧ (s.shaft n).reqs.contains calRequest then
      (let s1 := if s.holdsLamp (k + 1) then s.loseLamp (k + 1) else s
      if s.holdsLamp k then s1.loseLamp k else s1)
    else s)

/-- SPRINT_LIMIT (R405, row 2). -/
def execSprintLimit (shaft : Nat) (s : State) : Out := .next (s.endSprint (shaft % 1024))

/-- COOLDOWN_END (R134): BOTH may be granted again. -/
def execCooldownEnd (shaft : Nat) (s : State) : Out :=
  let n := shaft % 1024
  .next ((s.setShaft n { s.shaft n with cool := false, spms := 0 }).grant n)

/-- The sprint whose grant is the oldest. -/
def oldestSprint : List (Nat × Shaft) → Option (Nat × Shaft)
  | [] => none
  | x :: l =>
    match oldestSprint l with
    | some y => if y.2.sprintAt < x.2.sprintAt then some y else some x
    | none => some x

/-- Between two samples of the lamp room the system account is charged for refresh, idle power, leakage and the lamp
room's own work, whose amount is free (R409, log 12). -/
def State.chargeSystem (s : State) : State := (s.chargeTag 0 (Config.systemEnergy s.draws)).draw

/-- PAVG_UPDATE (R405, rows 3 and 5): an update above PSPRINT ends the oldest sprint; requests for BOTH are then tested. -/
def execPavgUpdate (watts : Nat) (s : State) : Out :=
  let s1 := { s.chargeSystem with pavg := watts % 65536 }
  let s2 :=
    match oldestSprint s1.sprints with
    | some x => if s1.psprint < s1.pavg then s1.endSprint x.1 else s1
    | none => s1
  .next s2.grantAll

/-! ### Heat (R387, R407, R420) -/

/-- The marks of a shaft at a temperature (R407). -/
def Shaft.heat (h : Shaft) (t : Nat) : Shaft :=
  { h with
    temp := t, hot := decide (95 ≤ t) || (h.hot && decide (90 ≤ t)), throt := decide (100 ≤ t) || (h.throt && decide (95 ≤ t)),
    emerg := decide (105 ≤ t) || (h.emerg && decide (100 ≤ t)) }

/-- Partitions with a crew on a shaft. -/
def State.partsOn (s : State) (n : Nat) : List Nat :=
  (([2 * n, 2 * n + 1].filter fun k => (s.core k).point.isSome).map fun k => (s.core k).part).eraseDups

/-- Emergency saves of some partitions (R387). -/
def State.emergencySaves (s : State) : List Nat → State
  | [] => s
  | p :: l => (s.emergencySave p).emergencySaves l

/-- Points whose cores lie in a stack. -/
def State.pointsIn (s : State) (stack : Nat) : List Point :=
  ((s.cores.filter fun x => x.1 / 512 == stack).filterMap fun x => x.2.point.map fun p => { p with rank := 0 }).eraseDups

/-- A point whose context the cut of its rail destroys (R387): its record fails and the context is reported lost. -/
def State.losePoint (s : State) (x : Point) : State :=
  let part := (s.core x.base).part
  let s1 := s.discardCores (x.recNo, x.serial) (s.crewAt x)
  let r := s1.record x.recNo
  let s2 := if s.current x then
      s1.setRecord x.recNo { r with state := if r.state.live then .faulted else r.state, points := r.points.filter fun f => f.serial != x.serial }
    else s1
  (s2.setPcb part { s2.pcb part with isLost := true }).report part (mkReport 5 part x.recNo x.base 0 0 0 x.serial)

/-- Loses points. -/
def State.losePoints (s : State) : List Point → State
  | [] => s
  | x :: l => (s.losePoint x).losePoints l

/-- Clusters of a stack without their rail trim (R419). -/
def State.untrim (s : State) : List Nat → State
  | [] => s
  | n :: l => (s.setCluster n { (s.cluster n).runAt 570 900 with trimmed := false }).untrim l

/-- Clusters of a stack. -/
def stackClusters (stack : Nat) : List Nat := (List.range 32).map (32 * stack + ·)

/-- Calibration gives the lamps of some shafts up. -/
def State.freeCals (s : State) : List Nat → State
  | [] => s
  | n :: l => (s.freeCal n).freeCals l

/-- The logic rail of a stack is cut (R387): what its crews had not sealed is lost, and its cores halt. -/
def State.cutStack (s : State) (stack : Nat) : State :=
  if s.cut.getLsbD stack then s
  else
    let s1 := ((s.losePoints (s.pointsIn stack)).abandonAll ((List.range 512).map (512 * stack + ·))).freeCals ((List.range 256).map (256 * stack + ·))
    ({ s1 with cut := s1.cut ||| ((1 : BitVec 4) <<< stack) }).bringUpOn

/-- Panels that must be calibrated afresh (R419). -/
def Core.uncalibrate (c : Core) : Core := { c with panels := c.panels.map fun x => (x.1, { x.2 with calibrated := false }) }

/-- Every shaft of a cut stack reads below 90 degrees. -/
def State.stackCool (s : State) (stack : Nat) : Bool :=
  s.cut.getLsbD stack && (List.range 256).all fun i => decide ((s.shaft (256 * stack + i)).temp < 90)

/-- A stack re-enters stage 1 for its own clusters, which STAGE shows; calibration in the other stacks goes on (R420, log 47). -/
def State.stackBack (s : State) (stack : Nat) : State :=
  if s.stackCool stack then
    let s1 := s.untrim (stackClusters stack)
    { s1 with
      cores := s1.cores.map fun x => (x.1, if x.1 / 512 = stack then x.2.uncalibrate else x.2),
      cut := s1.cut &&& ~~~((1 : BitVec 4) <<< stack), stage := min 1 s1.stage }
  else s

/-- TEMP_SAMPLE (R387, R405, R407): the marks in the order of R405, then 105 and 115 degrees. -/
def execTempSample (shaft degrees : Nat) (s : State) : Out :=
  let n := shaft % 1024
  let h := s.shaft n
  let h1 := h.heat (degrees % 256)
  let s1 := s.chargeSystem.setShaft n h1
  let s2 := if h1.hot && !h.hot then s1.endSprint n else s1
  let s3 := if h1.emerg && !h.emerg then s2.emergencySaves (s2.partsOn n) else s2
  let s4 := if 115 ≤ h1.temp then s3.cutStack (n / 256) else s3
  .next ((s4.stackBack (n / 256)).grant n)

end Sys2Proof.Machine
end

