-- ==== Sys2Proof/Machine/Links.lean ====
section
/-! DEFINITION. Links: ports, arriving chunks, ring hops (R412 to R417, R422). -/

namespace Sys2Proof.Machine

/-- Replaces a port. -/
def State.setPort (s : State) (n : Nat) (p : Port) : State := { s with ports := tput s.ports n p }

/-- IBPORT_WRITE (R412): EN = 0 forces STATE 3; a port enabled again starts down (log 22). PEER is kept only while up. -/
def execIbportWrite (port : Nat) (value : Word) (s : State) : Out :=
  let n := port % 16
  let p := s.port n
  .next
    (if 12 ≤ n ∨ s.fwstat ≠ 0 then s
    else if bitAt value 2 then s.setPort n { p with en := true, state := if p.state = 3 then 0 else p.state }
    else s.setPort n { p with en := false, state := 3, peer := 0 })

/-- LINK_RETRY (R412): the counter saturates; no result changes. -/
def execLinkRetry (port : Nat) (s : State) : Out :=
  let n := port % 16
  let p := s.port n
  .next (if 12 ≤ n then s else s.setPort n { p with retry := min (2 ^ 32 - 1) (p.retry + 1) })

/-- PORT_STATE_CHANGE (R412, R413): an enabled port is down, training or up. A copy that loses its route finds so at its next
chunk. -/
def execPortStateChange (port state peer : Nat) (s : State) : Out :=
  let n := port % 16
  let p := s.port n
  let x := state % 3
  .next (if 12 ≤ n ∨ p.en = false then s else s.setPort n { p with state := x, peer := if x = 2 then peer % 2 ^ 19 else 0 })

/-- REMOTE_CHUNK_ARRIVAL (R294, R413, R415, R416): discarded while DEVNUM is unset or where no phaser takes it; else it queues
behind the chunks that wait, and what may be applied is, oldest first. -/
def execRemoteChunkArrival (source : Nat) (chunk : RemoteChunk) (s : State) : Out :=
  let dev := source % 2 ^ 19
  .next
    (if !s.devnumSet || !s.chunkTaken dev chunk then s
    else ({ s with inbound := s.inbound ++ [(dev, chunk)] }).serveInbound (s.inbound.length + 1))

/-- Every panel of a core shows the advisory (R422). -/
def Core.advisePanels (c : Core) : Core := (List.range 32).foldl (fun c p => c.setPanel p { c.panel p with advise := true }) c

/-- Panels of some cores show the advisory. -/
def State.advisePanels (s : State) : List Nat → State
  | [] => s
  | k :: l => (s.setCore k (s.core k).advisePanels).advisePanels l

/-- Clusters go on the lost list: their panels show the advisory, and calibration leaves their shafts. -/
def State.loseClusters (s : State) : List Nat → State
  | [] => s
  | n :: l =>
    let s1 := (s.setCluster n { s.cluster n with lost := true }).advisePanels ((List.range 16).map (16 * n + ·))
    (s1.freeCals (clusterShafts n)).loseClusters l

/-- RING_HOP_FAILURE (R414, R422): the clusters of the stack beyond the hop, which stack has the hop's number (log 25), are lost, and the
advisory is raised. The stages of bring-up go on without them (R419, R420). -/
def execRingHopFailure (hop : Nat) (s : State) : Out := .next ({ s.loseClusters (stackClusters (hop % 4)) with advise := true }).bringUpOn

end Sys2Proof.Machine
end

