-- ==== Sys2Proof/Machine/HostRegs.lean ====
section
/-! DEFINITION. What the host does through BAR 0 and BAR 2: registers, windows, atomics, invalidations and the walker (R5, R6, R163,
R330, R331, R341, R357, R362, R363, R370, R392 to R398, R412). -/

namespace Sys2Proof.Machine

/-! ### Registers with rows of their own (R341, R362, R363) -/

/-- DEVNUM_WRITE (R341): once after reset; a second write is dropped and logged with kind 7. -/
def execDevnumWrite (value : Word) (s : State) : Out :=
  .next (if s.fwstat ≠ 0 then s else if s.devnumSet then s.logHost 7 0 0 false else { s with devnum := field value 8 19, devnumSet := true })

/-- FQCFG_WRITE (R362): FLOG outside 4 to 16 stays as it was. Reports that waited are written where there is room (R363). -/
def execFqcfgWrite (value : Word) (s : State) : Out :=
  let f := field value 0 5
  let s1 := { s with fqLog := if 4 ≤ f ∧ f ≤ 16 then f else s.fqLog, fqInten := bitAt value 8 }
  .next (if s.fwstat ≠ 0 then s else s1.flushReports s1.reports.length)

/-- FQHEAD_WRITE (R363). -/
def execFqheadWrite (value : Word) (s : State) : Out :=
  let s1 := { s with fqHead := field value 0 32 }
  .next (if s.fwstat ≠ 0 then s else s1.flushReports s1.reports.length)

/-! ### Invalidations and walks (R392 to R395) -/

/-- Bytes of a page by the code of SIZE (R395). -/
def pageBytes (n : Nat) : Nat :=
  match n with
  | 0 => 2 ^ 16
  | 1 => 2 ^ 21
  | 2 => 2 ^ 29
  | _ => 2 ^ 37

/-- The translation is dropped: its page overlaps the named page, or ALL (R395). -/
def Trans.dropped (t : Trans) (part : Nat) (all : Bool) (size va : Nat) : Bool :=
  let n := pageBytes size
  let a := va / n * n
  t.part == part && (all || decide (t.base < a + n ∧ a < t.base + t.size))

/-- A cluster's translation cache after an invalidation. -/
def Cluster.invalidate (c : Cluster) (part : Nat) (all : Bool) (size va : Nat) : Cluster :=
  { c with tcache := c.tcache.filter fun t => !t.dropped part all size va }

/-- INVALIDATE (R395): a write of XINVCTL. GO starts the invalidation, and is ignored while BUSY. -/
def execInvalidate (value : Word) (s : State) : Out :=
  let part := field value 0 7
  let all := bitAt value 7
  let size := field value 8 2
  let s1 := { s with invPart := part, invAll := all, invSize := size }
  .next
    (if s.fwstat ≠ 0 then s
    else if bitAt value 15 && !s.invBusy then
      ({ s1 with
        clusters := s1.clusters.map (fun (c : Nat × Cluster) => (c.1, c.2.invalidate part all size s.invVa)), invBusy := true, invAt := s.order }).tick
    else s1)

/-- Every access translated before the invalidation started has been performed (R395). -/
def State.invalidated (s : State) : Bool :=
  s.cores.all fun x => streamIds.all fun st => (x.2.stream st).accesses.all fun a => decide (s.invAt ≤ a.order0)

/-- INVALIDATION_DONE (R395): BUSY clears. -/
def execInvalidationDone (s : State) : Out := .next (if s.invBusy && s.invalidated then { s with invBusy := false } else s)

/-- TRANSLATION_WALK (R392, R393): a miss is walked; a success is cached, a fault is not. -/
def execTranslationWalk (cluster part va : Nat) (s : State) : Out :=
  let cl := cluster % 128
  let p := part % 128
  .next (if (s.cachedTrans cl p (va % 2 ^ 57)).isSome then s else (s.translate cl p (va % 2 ^ 57)).1)

/-! ### Partition windows (R330, R331, R370) -/

/-- A PCB word written while the partition is not formed (R330). -/
def Pcb.setWord (b : Pcb) (n : Nat) (v : Word) : Pcb :=
  match n with
  | 0 => { b with clusters := (b.clusters &&& ~~~(0xFFFFFFFFFFFFFFFF : BitVec 128)) ||| v.setWidth 128 }
  | 1 => { b with clusters := (b.clusters &&& (0xFFFFFFFFFFFFFFFF : BitVec 128)) ||| (v.setWidth 128 <<< 64) }
  | 2 => { b with isSealed := bitAt v 1, shadow := field v 2 6, tag := field v 8 12, poolBase := field v 32 12, poolCnt := field v 44 13 }
  | 3 => { b with troot := field v 0 56 }
  | _ => b

/-- A word of DPHASER written (R330). -/
def Pcb.setDphaser (b : Pcb) (n : Nat) (v : Word) : Pcb :=
  { b with dphaser := (b.dphaser &&& ~~~((0xFFFFFFFFFFFFFFFF : BitVec 256) <<< (64 * n))) ||| (v.setWidth 256 <<< (64 * n)) }

/-- Word n of a PCB written (R330, R370). A non-zero CMD that is no command is refused with error 3; the commands have rows of their
own. -/
def State.writePcb (s : State) (p n : Nat) (v : Word) : State :=
  let b := s.pcb p
  if n ≤ 3 then (if b.formed then s else s.setPcb p (b.setWord n v))
  else if n ≤ 7 then (if b.formed then s else s.setPcb p (b.setDphaser (n - 4) v))
  else if n = 8 then (if 5 < field v 8 8 then s.pcbErr p 3 else s)
  else if n = 9 then (if b.saving || b.restoring then s else s.setPcb p { b with saveBase := field v 6 51 * 64 })
  else if n = 10 then (if field v 0 32 = 0 then s else s.setPcb p { b with saveDl := field v 0 32 })
  else s

/-- LCMD written (R331, R340): its fields, and then the command it starts, which the rows BUILD to FREE perform too; CMD 6 and 7 are
refused (log 95). -/
def State.writeLcmd (s : State) (p : Nat) (v : Word) : State :=
  let b := s.pcb p
  let n := field v 0 12
  let s1 := s.setPcb p { b with lrec := n, lword := field v 16 5 }
  match field v 12 3 with
  | 0 => s1
  | 1 => s1.launchCommand p n false (State.hostBuild p n)
  | 2 => s1.launchCommand p n false (State.hostPatch n (field v 16 5) b.ldata)
  | 3 => s1.launchCommand p n false (State.hostArm p n)
  | 4 => s1.launchCommand p n false fun s => (s, 0)
  | 5 => s1.launchCommand p n false (State.hostFree n)
  | _ => s1.launchResult p n (if b.isSealed && b.formed then 4 else 3)

/-- CLCMD written without GO (R331): its fields. -/
def State.writeClcmd (s : State) (p : Nat) (v : Word) : State :=
  if bitAt v 15 then s
  else s.setPcb p { s.pcb p with clCluster := field v 0 7, clBank := field v 7 6, clMode := field v 13 2 }

/-- A write into a partition window (R331). -/
def State.writeWindow (s : State) (p o : Nat) (v : Word) : State :=
  if o < 0x60 then s.writePcb p (o / 8) v
  else if o = 0x100 then s.writeLcmd p v
  else if o = 0x108 then s.setPcb p { s.pcb p with ldata := v }
  else if o = 0x118 then s.writeClcmd p v
  else s

/-! ### Registers without rows of their own (R5, R6) -/

/-- Headframe registers (R362): RECCMD holds a command that is none. -/
def State.writeHeadframe (s : State) (n : Nat) (v : Word) : State :=
  match n with
  | 0 => { s with dispen := bitAt v 0 }
  | 2 => { s with recsel := field v 0 12 }
  | 5 => if 1 < field v 0 8 then { s with reccmdErr := 3 } else s
  | 8 => { s with fqBase := field v 6 32 * 64 }
  | _ => s

/-- The windows of BAR 2 (R396): WINCTL and WINVA by turns. -/
def State.writeWindowReg (s : State) (n : Nat) (v : Word) : State :=
  let w := tget ⟨0, false, false, 0⟩ s.windows (n / 2)
  let w1 := if n % 2 = 0 then { w with part := field v 0 7, en := bitAt v 7, wen := bitAt v 8 } else { w with base := field v 32 25 }
  { s with windows := tput s.windows (n / 2) w1 }

/-- QCMD with a command that is none (R357, R362): 0 asks nothing, any other is refused. -/
def State.writeQcmd (s : State) (id : Nat) (v : Word) : State :=
  if field v 0 8 = 1 then s
  else s.queueWrite id (0x00120000 + 8 * id) (if field v 0 8 = 0 then s else s.queueErr id 3)

/-- A write to QSTAT or QSTAT2 of a queue, which are read-only (R357): a sealed partition's logs it all the same (R362). -/
def State.writeQstat (s : State) (n : Nat) : State := if n % 4 < 2 then s else s.queueWrite (n / 4) (0x00110000 + 8 * n) s

/-- REGISTER_WRITE (R5, R6): 8 bytes at an offset of BAR 0. Read-only and reserved offsets ignore it, and registers with rows of their
own are written by those. -/
def execRegisterWrite (offset : Nat) (value : Word) (s : State) : Out :=
  let o := offset / 8 * 8
  .next
    (if s.fwstat ≠ 0 then s
    else if 0x01000000 ≤ o ∧ o < 0x09000000 then s.writeWindow ((o - 0x01000000) / 0x00100000) (o % 0x00100000) value
    else if 0x00100000 ≤ o ∧ o < 0x00100060 then s.writeHeadframe ((o - 0x00100000) / 8) value
    else if 0x00110000 ≤ o ∧ o < 0x00114000 then s.writeQstat ((o - 0x00110000) / 8)
    else if 0x00120000 ≤ o ∧ o < 0x00121000 then s.writeQcmd ((o - 0x00120000) / 8) value
    else if o = 0x00130008 then { s with invVa := field value 0 57 }
    else if 0x00130200 ≤ o ∧ o < 0x00130300 then s.writeWindowReg ((o - 0x00130200) / 8) value
    else if 0x00151000 ≤ o ∧ o < 0x00155000 then { s with routes := tset 0 s.routes ((o - 0x00151000) / 8) (field value 0 12) }
    else s)

/-! ### Sealed reads (R331, R362, R397, R399) -/

/-- The sealed partition that an offset of BAR 0 belongs to; RECSTAT and RECSER belong to that of the record they show (log 84). -/
def State.sealedAt (s : State) (o : Nat) : Option Nat :=
  let q (cl : Nat) : Option Nat := s.partitionOf cl
  let owner :=
    if 0x00400000 ≤ o ∧ o < 0x00500000 then s.sliceOwner ((o - 0x00400000) / 256)
    else if 0x00100018 ≤ o ∧ o < 0x00100028 then s.sliceOwner s.recsel
    else if 0x00110000 ≤ o ∧ o < 0x00114000 then q ((o - 0x00110000) / 128)
    else if 0x00120000 ≤ o ∧ o < 0x00121000 then q ((o - 0x00120000) / 32)
    else if 0x01000000 ≤ o ∧ o < 0x09000000 then
      (let x := o % 0x00100000
      if (0x1000 ≤ x ∧ x < 0x21000) ∨ (0x40000 ≤ x ∧ x < 0xC0000) then some ((o - 0x01000000) / 0x00100000) else none)
    else none
  match owner with
  | some p => if (s.pcb p).isSealed && (s.pcb p).formed then some p else none
  | none => none

/-! ### Host windows (R396, R397) -/

/-- Charges a partition for bytes the host moves: over PCIe, and between the I/O die and their homes (R9, R409). -/
def State.chargeHost (s : State) (part : Nat) (ls : List Loc) : State :=
  (s.chargeMove part ioDie ls).chargeTag (s.pcb part).tag (5000 * ls.length)

/-- What the window's control answers before translation (R397): a refusal, or the partition. -/
def State.windowGate (s : State) (n addr : Nat) (write : Bool) : State × Option Nat :=
  let w := tget ⟨0, false, false, 0⟩ s.windows n
  let b := s.pcb w.part
  if !w.en || !b.formed || (write && !w.wen) then ({ s.logHost 1 w.part addr false with reply := .unsupportedRequest }, none)
  else if b.isSealed then
    ({ s.logHost (if write then 5 else 4) w.part addr false with reply := if write then .done else .value (-1) }, none)
  else (s, some w.part)

/-- The byte lies in a page with the system-atomic attribute. -/
def Loc.isDirect : Loc → Bool
  | .scratch _ _ => false
  | .cluster _ _ => false
  | .hbm _ => false
  | .direct _ => true
  | .host _ => false

/-- The home bytes a host access reaches, and whether their page carries SA; a translation or protection failure completes with
Completer Abort (R397). -/
def State.hostReach (s : State) (n o bytes part addr : Nat) (need : Need) : State × Option (List Loc × Bool) :=
  let w := tget ⟨0, false, false, 0⟩ s.windows n
  match s.locateVirtual (s.pcb part).firstCluster part (w.base * 2 ^ 32 + o) bytes need with
  | (s1, .error _) => ({ s1.logHost 2 part addr false with reply := .completerAbort }, none)
  | (s1, .ok ls) => (s1, some (ls, ls.all Loc.isDirect))

/-- HOST_WINDOW_ACCESS (R159, R396, R397): up to 8 bytes, at the home. -/
def execHostWindowAccess (window offset size : Nat) (write : Bool) (value : Word) (s : State) : Out :=
  let n := window % 16
  let o := offset % 2 ^ 32
  let bytes := max 1 (min 8 size)
  let addr := n * 2 ^ 32 + o
  match s.windowGate n addr write with
  | (s1, none) => .next s1
  | (s1, some part) =>
    match s1.hostReach n o bytes part addr ⟨!write, write, false, false, none⟩ with
    | (s2, none) => .next s2
    | (s2, some (ls, _)) =>
      let key := (s2.pcb part).key
      let s3 := s2.chargeHost part ls
      .next
        (if write then { s3.homeSetAll key (ls.zip (leBytes bytes value.toNat)) with reply := .done }
        else { s3 with reply := .value (word (leNat (ls.map (s3.homeGet key)))) })

/-- What a PCIe AtomicOp leaves in a word of n bytes (R163). -/
def hostAtomicResult (op : HostAtomic) (n old v expected : Nat) : Nat :=
  match op with
  | .fetchAdd => (old + v) % 2 ^ (8 * n)
  | .swap => v % 2 ^ (8 * n)
  | .cas => if old = expected % 2 ^ (8 * n) then v % 2 ^ (8 * n) else old

/-- HOST_ATOMICOP (R163, R397): 32 or 64 bit, on a page with SA alone; it answers the old word. -/
def execHostAtomicop (window offset size : Nat) (op : HostAtomic) (value expected : Word) (s : State) : Out :=
  let n := window % 16
  let o := offset % 2 ^ 32
  let bytes := if size = 4 then 4 else 8
  let addr := n * 2 ^ 32 + o
  match s.windowGate n addr true with
  | (s1, none) => .next s1
  | (s1, some part) =>
    match s1.hostReach n o bytes part addr ⟨true, true, true, false, none⟩ with
    | (s2, none) => .next s2
    | (s2, some (ls, sa)) =>
      if !sa then .next { s2.logHost 3 part addr false with reply := .completerAbort }
      else
        let key := (s2.pcb part).key
        let old := leNat (ls.map (s2.homeGet key))
        let s3 := (s2.chargeHost part ls).homeSetAll key (ls.zip (leBytes bytes (hostAtomicResult op bytes old value.toNat expected.toNat)))
        .next { s3 with reply := .value (word old) }

end Sys2Proof.Machine
end

