-- ==== Sys2Proof/Machine/HostRead.lean ====
section
/-! DEFINITION. What a read of a register of BAR 0 returns (R5, R6, R330, R331, R333, R335, R339, R341, R357, R362, R370, R395,
R396, R398, R400, R410 to R412, R416, R418, R422). A reserved field or offset reads as zero. -/

namespace Sys2Proof.Machine

/-- A word of fields: lowest bit, width and value of each. -/
def fieldWord (l : List (Nat × Nat × Nat)) : Word := l.foldl (fun w f => w ||| word (f.2.2 % 2 ^ f.2.1 * 2 ^ f.1)) 0

/-! ### The device (R341, R400, R418, R422) -/

/-- The identity word (R341). -/
def State.identity (s : State) : Word := fieldWord [(0, 8, Config.stepping.toNat), (8, 19, s.devnum), (32, 32, Config.cores)]

/-- A cluster in service with every panel calibrated, retired panels apart (R418). -/
def State.calibrated (s : State) (n : Nat) : Bool :=
  !(s.cluster n).lost && (List.range 16).all fun i => (List.range 32).all fun p =>
    ((s.core (16 * n + i)).panel p).calibrated || ((s.core (16 * n + i)).panel p).retired

/-- BRSTAT (R418). -/
def State.brstat (s : State) : Word :=
  fieldWord [(0, 3, s.stage), (8, 8, ((List.range 128).filter s.calibrated).length), (16, 7, s.calcl)]

/-- DEGSTAT (R422). -/
def State.degstat (s : State) : Word :=
  fieldWord [(0, 1, bit s.advise), (1, 16, s.nret), (17, 8, ((List.range 128).filter fun n => (s.cluster n).lost).length)]

/-- A word of LOST: clusters from n on (R422). -/
def State.lostMask (s : State) (n : Nat) : Word := fieldWord ((List.range 64).map fun i => (i, 1, bit (s.cluster (n + i)).lost))

/-- The registers at the base of BAR 0. -/
def State.deviceWord (s : State) (o : Nat) : Word :=
  match o with
  | 0x00 => s.identity
  | 0x40 => word s.fwstat
  | 0x48 => s.brstat
  | 0x50 => s.degstat
  | 0x60 => s.lostMask 0
  | 0x68 => s.lostMask 64
  | _ => 0

/-! ### The headframe (R357, R362) -/

/-- HFSTAT: points fired and not dispatched, over all records (R362). -/
def State.readyCount (s : State) : Nat := (s.records.map fun r => (r.2.points.filter fun p => p.crew.isNone).length).foldl (· + ·) 0

/-- RECSTAT (R362): SLOT while ACTIVE; WAITR while it waits; INFLT, points fired and not complete; RUNG, points of a RANGE record that have a crew. A RANGE
point that has ended and whose remainder still stands (R355) is neither. -/
def Record.statWord (r : Record) : Word :=
  let l := r.points.filter fun p => !p.ended
  let run := if r.isRange then (l.filter fun p => p.crew.isSome).length else 0
  fieldWord [(0, 3, r.state.code), (3, 2, if r.state = .armed ∨ r.state = .waiting then r.waitr else 0), (5, 6, if r.state = .active then r.slot else 0), (11, 9, l.length), (20, 12, run)]

/-- Register n of the headframe (R362); RECCMD.CMD reads as zero. -/
def State.headframeWord (s : State) (n : Nat) : Word :=
  match n with
  | 0 => fieldWord [(0, 1, bit s.dispen)]
  | 1 => fieldWord [(0, 7, s.heldSlots.length), (7, 1, bit (!s.reports.isEmpty)), (16, 16, min 65535 s.readyCount)]
  | 2 => fieldWord [(0, 12, s.recsel)]
  | 3 => (s.record s.recsel).statWord
  | 4 => fieldWord [(0, 48, (s.record s.recsel).nser)]
  | 5 => fieldWord [(8, 8, s.reccmdErr)]
  | 8 => word s.fqBase
  | 9 => fieldWord [(0, 5, s.fqLog), (8, 1, bit s.fqInten)]
  | 10 => word s.fqHead
  | 11 => word s.fqTail
  | _ => 0

/-- QCFG, QBASE, QSTAT and QSTAT2 of a queue (R357). -/
def TaskQueue.readWord (q : TaskQueue) (n : Nat) : Word :=
  match n with
  | 0 => fieldWord [(0, 1, bit q.en), (1, 1, bit q.ftrap), (2, 1, bit q.sspace), (3, 5, q.slog), (8, 7, q.owner)]
  | 1 => word q.sbase
  | 2 => fieldWord [(0, 32, q.head), (32, 32, q.tail)]
  | _ => fieldWord [(0, 21, q.scount), (21, 21, q.shead), (42, 1, bit q.spillBlocked), (43, 1, bit q.rblk)]

/-! ### The walker, the windows and the log (R395, R396, R398) -/

/-- XINVCTL, XINVVA, HLOGCNT, the host windows and the log, by their offset from 0x0013_0000. -/
def State.walkerWord (s : State) (o : Nat) : Word :=
  if o = 0 then fieldWord [(0, 7, s.invPart), (7, 1, bit s.invAll), (8, 2, s.invSize), (16, 1, bit s.invBusy)]
  else if o = 8 then word s.invVa
  else if o = 0x100 then fieldWord [(0, 32, s.logCount)]
  else if 0x200 ≤ o ∧ o < 0x300 then
    let w := tget ⟨0, false, false, 0⟩ s.windows ((o - 0x200) / 16)
    if o % 16 = 0 then fieldWord [(0, 7, w.part), (7, 1, bit w.en), (8, 1, bit w.wen)] else fieldWord [(32, 25, w.base)]
  else if 0x1000 ≤ o ∧ o < 0x1400 then
    let e := tget (0, 0) s.log ((o - 0x1000) / 16)
    if o % 16 = 0 then e.1 else e.2
  else 0

/-! ### The lamp room (R411) -/

/-- Milliseconds remaining of a sprint or a cool-down: how many have passed is free (log 5). -/
def Shaft.msLeft (h : Shaft) (n : Nat) : Nat := if h.spms = 0 then 0 else h.spms - Config.msPassed n % h.spms

/-- SHTEMP.LAMP: calibration holds the lamp in the manner of a core of the lower level (R420). -/
def Shaft.lampCode (h : Shaft) : Nat := if h.lower && h.upper then 3 else if h.upper then 2 else if h.lower || h.cal then 1 else 0

/-- The lamp room's registers by their offset from 0x0014_0000; ENERGY n reads the counter of tag n (R410). -/
def State.lampRoomWord (s : State) (o : Nat) : Word :=
  if o = 0 then fieldWord [(0, 16, s.psust), (16, 16, s.psprint), (32, 1, bit s.spen)]
  else if o = 8 then
    fieldWord [(0, 9, s.sprints.length), (16, 16, s.pavg), (32, 11, (s.shafts.filter fun h => h.2.hot).length), (48, 8, s.lrErr)]
  else if 0x1000 ≤ o ∧ o < 0x1800 then
    let c := s.cluster ((o - 0x1000) / 16)
    if o % 16 = 0 then
      fieldWord [(0, 10, c.vset), (12, 10, c.vnow), (22, 12, c.fset), (34, 12, c.fnow), (46, 1, bit c.rgap), (48, 16, c.pacemin)]
    else 0
  else if 0x4000 ≤ o ∧ o < 0x6000 then
    let h := s.shaft ((o - 0x4000) / 8)
    fieldWord [(0, 8, h.temp), (8, 2, h.lampCode), (10, 1, bit h.cool), (11, 1, bit h.hot), (12, 1, bit h.throt), (16, 16, h.msLeft s.draws)]
  else if 0x8000 ≤ o ∧ o < 0x10000 then tget 0 s.energy ((o - 0x8000) / 8)
  else 0

/-! ### Links and phasers (R335, R412, R416) -/

/-- PHCFG (R335). -/
def Phaser.cfgWord (x : Phaser) : Word :=
  fieldWord [(0, 1, bit x.alloc), (1, 1, bit x.bytes), (2, 7, x.part), (16, 8, x.err), (32, 32, x.phase)]

/-- ORDCFG (R416). -/
def Phaser.ordWord (x : Phaser) : Word := fieldWord [(0, 1, bit x.ordEn), (1, 19, x.ordLo), (20, 13, x.ordNsrc), (40, 8, x.ordErr)]

/-- IBPORT, IBROUTE, ORDCFG and PHCFG by their offset from 0x0015_0000. -/
def State.linkWord (s : State) (o : Nat) : Word :=
  if o < 0xC0 then
    let p := s.port (o / 16)
    if o % 16 = 0 then fieldWord [(0, 2, if p.en then p.state else 3), (2, 1, bit p.en), (4, 19, p.peer), (32, 32, p.retry)] else 0
  else if 0x1000 ≤ o ∧ o < 0x5000 then word (tget 0 s.routes ((o - 0x1000) / 8))
  else if 0x8000 ≤ o ∧ o < 0x8800 then (s.dphaser ((o - 0x8000) / 8)).ordWord
  else if 0xA000 ≤ o ∧ o < 0xA800 then (s.dphaser ((o - 0xA000) / 8)).cfgWord
  else if 0xC000 ≤ o ∧ o < 0x1C000 then (s.phaser ((o - 0xC000) / 512) ((o - 0xC000) / 8 % 64 + 1)).cfgWord
  else 0

/-! ### Partition windows (R330, R331, R333, R339, R370) -/

/-- Word n of a PCB: CMD reads as zero, and BUSY is set while a save or a restore runs; every other command is done in the step that
takes it (R330, R370, log 76). -/
def Pcb.readWord (b : Pcb) (n : Nat) : Word :=
  match n with
  | 0 => b.clusters.setWidth 64
  | 1 => (b.clusters >>> 64).setWidth 64
  | 2 => fieldWord [(0, 1, bit b.formed), (1, 1, bit b.isSealed), (2, 6, b.shadow), (8, 12, b.tag), (32, 12, b.poolBase), (44, 13, b.poolCnt)]
  | 3 => fieldWord [(0, 56, b.troot)]
  | 4 | 5 | 6 | 7 => (b.dphaser >>> (64 * (n - 4))).setWidth 64
  | 8 => fieldWord [(0, 8, b.keySlot), (16, 8, b.err), (24, 1, bit (b.saving || b.restoring))]
  | 9 => word b.saveBase
  | 10 => fieldWord [(0, 32, b.saveDl)]
  | 11 =>
    fieldWord [(0, 1, bit b.saved), (1, 1, bit b.saving), (2, 1, bit b.restoring), (3, 1, bit b.emerg), (4, 1, bit b.isLost), (32, 31, b.saveNo)]
  | _ => 0

/-- The slot of a core in the core access window (R333). -/
def Core.slotWord (c : Core) (reg : Nat) : Word :=
  match reg with
  | 0 => c.trapvec
  | 1 => c.wdog
  | 2 => c.lampmax
  | 3 => c.partition
  | _ => 0

/-- The control word of a panel (R339): CAL, SPARE, RETIRE while remapping is requested, ADVISE. -/
def Panel.controlWord (x : Panel) : Word :=
  fieldWord [(0, 32, x.sw.toNat), (32, 1, bit x.calibrated), (33, 1, bit x.spare), (34, 1, bit x.retiring), (35, 1, bit x.advise)]

/-- A word of a partition window (R331); LCMD.CMD reads as zero and LSTAT.BUSY 0 (log 76). -/
def State.partitionWord (s : State) (p o : Nat) : Word :=
  let b := s.pcb p
  if o < 0x100 then b.readWord (o / 8)
  else if o = 0x100 then fieldWord [(0, 12, b.lrec), (16, 5, b.lword)]
  else if o = 0x108 then b.ldata
  else if o = 0x110 then fieldWord [(0, 8, b.lerr), (8, 3, b.lstate)]
  else if o = 0x118 then fieldWord [(0, 7, b.clCluster), (7, 6, b.clBank), (13, 2, b.clMode), (16, 8, b.clErr), (24, 1, bit b.clBusy)]
  else if 0x1000 ≤ o ∧ o < 0x21000 then
    match b.clusterAt ((o - 0x1000) / 1024) with
    | some cl => (s.core (16 * cl + (o - 0x1000) / 64 % 16)).slotWord (o / 8 % 8)
    | none => 0
  else if 0x40000 ≤ o ∧ o < 0xC0000 then
    match b.clusterAt ((o - 0x40000) / 4096) with
    | some cl => ((s.core (16 * cl + (o - 0x40000) / 256 % 16)).panel (o / 8 % 32)).controlWord
    | none => 0
  else 0

/-! ### All of BAR 0 -/

/-- The 8 bytes at an offset of BAR 0. After a failed check it shows the identity fields and FWSTAT alone (R400). -/
def State.barRead (s : State) (offset : Nat) : Word :=
  let o := offset / 8 * 8
  if s.fwstat ≠ 0 ∧ o ≠ 0 ∧ o ≠ 0x40 then 0
  else if o < 0x100 then s.deviceWord o
  else if 0x00100000 ≤ o ∧ o < 0x00100060 then s.headframeWord ((o - 0x00100000) / 8)
  else if 0x00110000 ≤ o ∧ o < 0x00114000 then (s.queue ((o - 0x00110000) / 32)).readWord (o / 8 % 4)
  else if 0x00120000 ≤ o ∧ o < 0x00121000 then fieldWord [(8, 8, (s.queue ((o - 0x00120000) / 8)).err)]
  else if 0x00130000 ≤ o ∧ o < 0x00131400 then s.walkerWord (o - 0x00130000)
  else if 0x00140000 ≤ o ∧ o < 0x00150000 then s.lampRoomWord (o - 0x00140000)
  else if 0x00150000 ≤ o ∧ o < 0x0016C000 then s.linkWord (o - 0x00150000)
  else if 0x00400000 ≤ o ∧ o < 0x00500000 then (s.record ((o - 0x00400000) / 256)).word (o / 8 % 32)
  else if 0x01000000 ≤ o ∧ o < 0x09000000 then s.partitionWord ((o - 0x01000000) / 0x00100000) (o % 0x00100000)
  else 0

/-- SEALED_READ (R331, R362, R398): a read of BAR 0. At a sealed partition's offset it is all ones, logged with kind 4;
anywhere else it is what stands there. -/
def execSealedRead (offset : Nat) (s : State) : Out :=
  match s.sealedAt offset with
  | some p => .next { s.logHost 4 p offset false with reply := .value (-1) }
  | none => .next { s.draw with reply := .value (s.barRead offset) }

end Sys2Proof.Machine
end

