-- ==== Sys2Proof/Machine/Security.lean ====
section
/-! DEFINITION. The SPDM responder: versions, certificates, challenges, measurements and sessions (R401, R402). Digests and
signatures are free functions of what they cover (log 13). -/

namespace Sys2Proof.Machine

/-- The responder answers while the device is in service: a failed check of R400 stops it. -/
def spdmAnswer (s : State) (r : SpdmReply) : Out := .next (if s.fwstat = 0 then { s with spdm := r } else s)

/-- The certificate chain of slot 0: root, device identity, alias key, which depends on the image (R400, R401). -/
def State.chain (s : State) : BitVec 512 := Config.signature (Nat.pair 0 s.fwContent)

/-- GET_VERSION: 1.3 alone. -/
def execGetVersion (s : State) : Out := spdmAnswer s (.version 1 3)

/-- GET_CAPABILITIES. -/
def execGetCapabilities (s : State) : Out := spdmAnswer s .capabilities

/-- NEGOTIATE_ALGORITHMS: the algorithms of R401. -/
def execNegotiateAlgorithms (s : State) : Out :=
  spdmAnswer s (.algorithms [.slhDsaShake256s, .mlKem1024, .sha3_384, .aes256Gcm])

/-- GET_DIGESTS: of the chain in slot 0, under the base hash. -/
def execGetDigests (s : State) : Out := spdmAnswer s (.digests (Config.sha3 s.chain.toNat))

/-- GET_CERTIFICATE: slot 0 alone holds a chain; another slot is an invalid request (log 26). -/
def execGetCertificate (slot : Nat) (s : State) : Out :=
  spdmAnswer s (if slot = 0 then .certificate 0 s.chain else .invalidRequest)

/-- CHALLENGE: signed with the alias key. -/
def execChallenge (nonce : Nat) (s : State) : Out :=
  spdmAnswer s (.challengeAuth (Config.signature (Nat.pair 1 (Nat.pair nonce s.fwContent))))

/-- What the measurement of a partition covers, none where it is not formed. A FORM or DISSOLVE of the same round has not
changed it yet (R402). -/
def State.formMeasured (s : State) (p : Nat) : Option Nat :=
  match tfind s.measured p with
  | some m => m
  | none => if (s.pcb p).formed then some (s.pcb p).formNo else none

/-- A measurement block (R402): its digest or value, and the security version in block 2. Block 3 is a raw number, the stepping code in
[7:0] and DEVNUM from bit 8 (log 86). -/
def State.measurement (s : State) (index : Nat) : Option (Nat × BitVec 512 × Nat) :=
  match index with
  | 1 => some (1, s.romDigest, 0)
  | 2 => some (2, s.fwDigest, s.fwVersion)
  | 3 => some (3, BitVec.ofNat 512 (Config.stepping.toNat + 256 * s.devnum), 0)
  | _ =>
    if index < 16 ∨ 144 ≤ index then none
    else (s.formMeasured (index - 16)).map fun m => (index, Config.shake256 (Nat.pair 4 m), 0)

/-- GET_MEASUREMENTS (R402): one block, or with index 255 all that are present (log 26). -/
def execGetMeasurements (index : Nat) (s : State) : Out :=
  spdmAnswer s
    (if index = 255 then .measurements ((List.range 144).filterMap s.measurement)
    else
      match s.measurement index with
      | some b => .measurements [b]
      | none => .invalidRequest)

/-- KEY_EXCHANGE: a fifth session is refused with Busy. -/
def execKeyExchange (_share : Nat) (s : State) : Out :=
  .next
    (if s.fwstat ≠ 0 then s
    else if 4 ≤ s.sessions.length then { s with spdm := .busy }
    else { s with sessions := s.sessions ++ [(s.nextSession, false)], nextSession := s.nextSession + 1, spdm := .keyExchange s.nextSession })

/-- FINISH: the session is established. -/
def execFinish (session : Nat) (s : State) : Out :=
  .next
    (if s.fwstat ≠ 0 then s
    else if s.sessions.contains (session, false) then
      { s with sessions := s.sessions.map (fun x => if x = (session, false) then (session, true) else x), spdm := .finished session }
    else { s with spdm := .invalidRequest })

/-- A command as a session carries it: of R340 on a record, or PREEMPT and RESTORE, which a sealed partition refuses outside
a session alone (R340, R371). -/
def State.sessionCommand (s : State) (part n : Nat) (c : HostCommand) : State :=
  match c with
  | .build => s.launchCommand part n true (State.hostBuild part n)
  | .patch w v => s.launchCommand part n true (State.hostPatch n (w % 32) v)
  | .arm => s.launchCommand part n true (State.hostArm part n)
  | .query => s.launchCommand part n true fun s => (s, 0)
  | .free => s.launchCommand part n true (State.hostFree n)
  | .preempt => s.hostPreempt part true
  | .restore => s.hostRestore part true

/-- The error that a session's command has left (R331, R371). -/
def sessionErr (c : HostCommand) (b : Pcb) : Nat :=
  match c with
  | .preempt | .restore => b.err
  | _ => b.lerr

/-- VENDOR_DEFINED_REQUEST (R401): inside an established session, the command of R340; outside, unsupported. -/
def execVendorDefinedRequest (session part n : Nat) (cmd : HostCommand) (s : State) : Out :=
  let p := part % 128
  .next
    (if s.fwstat ≠ 0 then s
    else if s.sessions.contains (session, true) then
      let s1 := s.sessionCommand p (n % 4096) cmd
      { s1 with spdm := .vendor (sessionErr cmd (s1.pcb p)) (s1.pcb p).lstate }
    else { s with spdm := .unsupportedRequest })

/-- Any other request gets UnsupportedRequest (R401). -/
def execSpdmOtherRequest (_code : Nat) (s : State) : Out := spdmAnswer s .unsupportedRequest

end Sys2Proof.Machine
end

