-- ==== Sys2Proof/Machine/BringUp.lean ====
section
/-! DEFINITION. Reset, bring-up and power-off (R75, R145, R245, R341, R399, R400, R418 to R422). -/

namespace Sys2Proof.Machine

/-! ### Reset (R400) -/

/-- A panel across reset: its weights, mask and wear stay; it is not calibrated, belongs to no partition, and its control word
has its reset values (R245, R339, R419). -/
def Panel.afterReset (p : Panel) : Panel :=
  { p with calibrated := false, pendingSw := none, owner := none, sw := 0x3F800000, retiring := false }

/-- A core across reset: its panels and the spares used. -/
def Core.afterReset (c : Core) : Core := { Core.reset with panels := c.panels.map fun x => (x.1, x.2.afterReset), spares := c.spares }

/-- HBM lines under the system key of before: a fresh one is drawn at reset, so they are readable under none (R399). -/
def State.rekeyed (s : State) (dead : Nat) : Tbl Nat :=
  s.hbmKey.map fun x => (x.1, if x.2 = 1 then dead + 1 else x.2)

/-- The device at reset: panels, host memory, HBM as stored, and the non-volatile store stay. -/
def State.restart (s : State) : State :=
  { State.reset with
    order := s.order, nominal := s.nominal, draws := s.draws,
    cores := s.cores.map fun x => (x.1, x.2.afterReset),
    hbm := s.hbm, hbmKey := s.rekeyed (s.keys + 1), poison := s.poison, keys := s.keys + 1,
    host := s.host, hostBad := s.hostBad, advise := s.advise, nret := s.nret, sent := s.sent }

/-- FWSTAT of an image: 0, or the failed check of R400. -/
def FlashImage.status (i : FlashImage) : Nat :=
  if !i.readable then 3 else if !i.signed then 1 else if i.version < Config.fusedVersion then 2 else 0

/-- DEVICE_RESET (R400): the ROM checks and measures the image; a failed check stops the device before service. -/
def execDeviceReset (image : FlashImage) (s : State) : Out :=
  let e := FlashImage.status image
  let s1 := s.restart
  .next { s1 with
    fwstat := e, fwReady := e == 0, fwContent := image.content, fwVersion := image.version,
    romDigest := Config.shake256 (Nat.pair 2 0), fwDigest := Config.shake256 (Nat.pair 3 image.content),
    idDigest := Config.shake256 (Nat.pair 5 s1.identity.toNat) }

/-! ### Bring-up (R419, R420) -/

/-- Clusters that bring-up finds lost: their self-test fails, or their rail trim will not complete, which is free (R422, log
25). -/
def State.failedClusters (s : State) : List Nat := (List.range 128).filter fun n => Config.clusterFails s.draws n

/-- FIRMWARE_START (R419, R422): stage 1, every cluster at 900 MHz on 570 mV, no panel calibrated; clusters that fail go on
the lost list. -/
def execFirmwareStart (s : State) : Out :=
  .next
    (if s.fwReady then
      let s1 := s.untrim (List.range 128)
      let l := s1.failedClusters
      let s2 := ({ s1 with fwReady := false, stage := 1, rails := false, cores := s1.cores.map fun (x : Nat × Core) => (x.1, x.2.uncalibrate) }).loseClusters l
      ({ s2 with advise := s2.advise || !l.isEmpty }).draw.bringUpOn
    else s)

/-- RAIL_TRIM_DONE (R419): the cluster takes the reset values of CLPWR; after the last one STAGE is 2. -/
def execRailTrimDone (cluster : Nat) (s : State) : Out :=
  let n := cluster % 128
  .next
    (if s.stage = 0 ∨ (s.cluster n).trimmed ∨ (s.cluster n).lost then s
    else
      (s.setCluster n { (s.cluster n).runAt 750 1800 with trimmed := true }).bringUpOn)

/-- Panel p of core k is under calibration (R420): with the rails of its stack trimmed, in the cluster whose turn it is, with the lamp of its shaft held,
and not through with it. -/
def State.inCalibration (s : State) (k p : Nat) : Bool :=
  let x := (s.core k).panel p
  s.calOpen (clusterOf k) && s.calcl == clusterOf k && !(s.cluster (clusterOf k)).lost && (s.shaft (shaftOf k)).cal && !x.calibrated && !x.retired &&
    !x.retiring

/-- PANEL_CAL_DONE (R420): the panel joins service with its generators seeded with 0; one whose calibration fails is to be
remapped (R421). After the last panel of a shaft its lamp is given up, and after the last of a cluster the next has its turn. -/
def execPanelCalDone (core panel : Nat) (ok : Bool) (s : State) : Out :=
  let k := core % 2048
  let p := panel % 32
  let c := s.core k
  let x := c.panel p
  let y := { x.calibrate ⟨s.nominal, s.draws, panelKey k p x.spare⟩ with
    calibrated := true, rowGen := zeroSubstitute, colGen := zeroSubstitute }
  .next
    (if s.inCalibration k p = false then s
    else
      let s1 := { s.setCore k (c.setPanel p (if ok then y else { x with retiring := true })) with draws := s.draws + calSpan }
      s1.calNext k)

/-! ### Power-off (R245) -/

/-- Core k whose power was removed: the fast weights of its panels hold no defined value, and the slow weights drift
within R253. -/
def Core.unpowered (c : Core) (nominal : Bool) (k draw : Nat) : Core :=
  { c.afterReset with
    panels := (List.range 32).map fun p =>
      (p, (c.panel p).afterReset.unpowered ⟨nominal, draw + 262144 * p, panelKey k p (c.panel p).spare⟩) }

/-- Free values that a power-off of the device uses. -/
def powerSpan : Nat := 2048 * 32 * 262144

/-- POWER_OFF (R245): slow weights and the non-volatile store stay, all else is as at reset, before the collar ROM has run. -/
def execPowerOff (s : State) : Out :=
  .next { s.restart with
    cores := (List.range 2048).map fun k => (k, (s.core k).unpowered s.nominal k (s.draws + 8388608 * k)), draws := s.draws + powerSpan }

end Sys2Proof.Machine
end

