-- ==== Sys2Proof/Machine/Exchange.lean ====
section
/-! DEFINITION. XSW: pairing with the twin and the exchange of a tile (R211). -/

namespace Sys2Proof.Machine

/-- XSW (R211): it waits for its partner and its claims. -/
def execXsw (t : BitVec 5) (s : State) : Out :=
  onTurn s fun k st => s.ownedBy k st .t (.xsw t) (s.waitOn k .t (.xsw t.toNat))

/-- The tile that the XSW at the head of a core's T stream names, if one waits there for its partner. -/
def State.waitingXsw (s : State) (k : Nat) : Option Nat :=
  match (s.stream k .t).wait with
  | some (.xsw t, _) => if s.runnable k .t && (s.core k).xsw.isNone then some t else none
  | _ => none

/-- Claims a tile for an exchange. -/
def Core.startXsw (c : Core) (t : Nat) : Core := { c.setTile t { c.tile t with writing := true } with xsw := some t }

/-- XSW_PAIR (R211): the checks of a pair, and its claims. An XSW pairs with the first XSW of its twin, though the twin's point may
have started after it began to wait (log 80). The clocks of both cores run (R404), as `waitingXsw` tests. -/
def execXswPair (n : Nat) (s : State) : Out :=
  let a := 2 * n
  let b := 2 * n + 1
  match s.waitingXsw a, s.waitingXsw b with
  | some t, some u =>
    let ca := s.core a
    let cb := s.core b
    if ca.ntiles ≤ t ∨ cb.ntiles ≤ t ∨ ca.ntiles ≤ u ∨ cb.ntiles ≤ u then
      .next ((s.raise a .t 0x05 (rangeInfo t ca.ntiles)).raise b .t 0x05 (rangeInfo u cb.ntiles))
    else if t ≠ u then .next ((s.raise a .t 0x06 (tileInfo 7 u)).raise b .t 0x06 (tileInfo 7 t))
    else if (ca.tile t).claimed || (cb.tile t).claimed then .next s
    else .next ((s.setCore a (ca.startXsw t)).setCore b (cb.startXsw t))
  | _, _ => .next s

/-- A tile received from the twin, its claim released. -/
def Core.receiveTile (c : Core) (t : Nat) (x : Tile) : Core :=
  { c.setTile t { x with writing := false } with xsw := none }

/-- A crew of kind core does not hold the twin: what an XSW moves leaves it (R135). -/
def State.commitXsw (s : State) (k : Nat) : State :=
  match (s.core k).point with
  | some p => if p.kind = 0 then s.commit k else s
  | none => s

/-- XSW_COMPLETE (R211): bytes, scale planes and descriptors have changed places. -/
def execXswComplete (n : Nat) (s : State) : Out :=
  let a := 2 * n
  let b := 2 * n + 1
  match (s.core a).xsw, if s.clocked a then (s.core b).xsw else none with
  | some t, some u =>
    let x := (s.core a).tile t
    let y := (s.core b).tile u
    let s1 := (s.setCore a ((s.core a).receiveTile t y)).setCore b ((s.core b).receiveTile u x)
    let s2 := (s1.retire a .t 2).retire b .t 2
    .next ((((s2.commitXsw a).commitXsw b).enterTrap a).enterTrap b)
  | _, _ => .next s

end Sys2Proof.Machine
end

