-- ==== Sys2Proof/Machine/Hoist.lean ====
section
/-! DEFINITION. The hoist: issue, start, chunks and completion of copies (R278 to R295). -/

namespace Sys2Proof.Machine

/-! ### Forms -/

/-- What a hoist instruction names: its tile and tile code, the layout it lands in or loads from, and the source
layout of HCPY and HSEND. -/
structure HoistForm where
  tile : Option Nat
  code : Nat
  mem : Nat
  src : Option Nat
  load : Bool
  deriving DecidableEq, Repr

/-- The form of a hoist instruction (R101, R102). -/
def hoistForm (i : Instr) : HoistForm :=
  match i with
  | .hld t l _ _ => ⟨some t.toNat, 0, l.toNat, none, true⟩
  | .hst t v l _ _ => ⟨some t.toNat, v.toNat, l.toNat, none, false⟩
  | .hsta t v l _ _ => ⟨some t.toNat, v.toNat, l.toNat, none, false⟩
  | .hgth t l _ _ => ⟨some t.toNat, 0, l.toNat, none, true⟩
  | .hsct t v l _ _ => ⟨some t.toNat, 2 * v.toNat, l.toNat, none, false⟩
  | .hpf l _ _ => ⟨none, 0, l.toNat, none, true⟩
  | .hcpy d y _ => ⟨none, 0, d.toNat, some y.toNat, false⟩
  | .hsend d y _ => ⟨none, 0, d.toNat, some y.toNat, false⟩
  | .hfill d _ => ⟨none, 0, d.toNat, none, false⟩
  | _ => ⟨none, 0, 0, none, false⟩

/-- The spaces an instruction allows its memory layout (R289 to R294). -/
def hoistSpaces (i : Instr) : List Nat :=
  match i with
  | .hsta .. => [0, 1, 2, 4, 5]
  | .hgth .. | .hsct .. => [0, 1, 2, 4]
  | .hpf .. => [4]
  | .hsend .. => [5]
  | _ => [0, 1, 2, 3, 4, 6]

/-- The spaces an instruction allows its source layout (R293, R294). -/
def sourceSpaces (i : Instr) : List Nat :=
  match i with
  | .hsend .. => [0, 1, 2, 3, 4]
  | _ => [0, 1, 2, 3, 4, 6]

/-- An instruction that adds into memory (R290, R291). -/
def hoistAdds (i : Instr) : Bool :=
  match i with
  | .hsta .. | .hsct .. => true
  | _ => false

/-- An instruction that goes by an index list (R291). -/
def hoistIndexed (i : Instr) : Bool :=
  match i with
  | .hgth .. | .hsct .. => true
  | _ => false

/-- The use of its tile (R284). -/
def copyUses (i : Instr) : List Use :=
  let f := hoistForm i
  match f.tile with
  | some t => [if f.load then Use.write t false else Use.read t (decide (2 ≤ f.code))]
  | none => []

/-! ### Issue (R283) -/

/-- The checks of the layouts at issue: R72 of each, then their spaces; the layout and the reason. -/
def State.hoistChecks (s : State) (k : Nat) (i : Instr) : Option (Nat × Nat) :=
  let f := hoistForm i
  match s.layout k f.mem f.load (!f.load) false with
  | .error r => some (f.mem, r)
  | .ok d =>
    match f.src with
    | none => if d.spaceOk (hoistSpaces i) then none else some (f.mem, 8)
    | some n =>
      match s.layout k n true false false with
      | .error r => some (n, r)
      | .ok y =>
        if d.spaceOk (hoistSpaces i) = false then some (f.mem, 8)
        else if y.spaceOk (sourceSpaces i) = false then some (n, 8)
        else none

/-- A copy enters the hoist (R284, R286). -/
def State.pushCopy (s : State) (k : Nat) (i : Instr) (coords second : Word) (token : Nat) : State :=
  let c := s.core k
  let pos := s.pos k .h
  let p : Copy := ⟨i, coords, second, token, c.ordinal + 1, false, 0, [], none, false, false, pos.hdr, pos.off, s.order,
    s.order⟩
  ((s.setCore k { c with copies := c.copies ++ [p], ordinal := c.ordinal + 1 }).tick).retire k .h 2

/-- Issue at the H stream: `reads` are the registers it reads, `token` its token register, none where bits [63:5] of
the register that names it are not zero (R293), which is found after the layouts' checks and the pending registers (log 91). -/
def State.hoistIssue (s : State) (k : Nat) (i : Instr) (c : Reg) (reads : List Reg) (token : Option Nat) : State :=
  match (s.core k).outOfRange (copyUses i) with
  | some t => s.raise k .h 0x05 (rangeInfo t (s.core k).ntiles)
  | none =>
    match s.hoistChecks k i with
    | some (l, r) => s.raise k .h 0x07 (layoutInfo l r)
    | none =>
      if s.anyPending k .h reads then s.waitOn k .h .register
      else
        match token with
        | none => s.raiseWord k .h 0x01 i
        | some t =>
          if s.anyPending k .h [BitVec.ofNat 5 t] then s.waitOn k .h .register
          else if 16 ≤ (s.core k).copies.length then s.waitOn k .h .unit
          else s.pushCopy k i (s.reg k .h c) (s.reg k .h (c + 1)) t

/-- An instruction of group HO: its token register is named by the word. -/
def hoistOp (i : Instr) (c t : Reg) (s : State) : Out :=
  onTurn s fun k st => s.ownedBy k st .h i (s.hoistIssue k i c [c, t] (some t.toNat))

/-- An instruction of group EXT: its token register is named by the third register of its run. -/
def hoistExt (i : Instr) (c : Reg) (s : State) : Out :=
  onTurn s fun k st =>
    s.ownedBy k st .h i
      (let v := (s.reg k .h (c + 2)).toNat
      s.hoistIssue k i c [c, c + 1, c + 2] (if v < 32 then some v else none))

/-- HLD (R289). -/
def execHld (t : BitVec 5) (l : BitVec 8) (c r : Reg) (s : State) : Out := hoistOp (.hld t l c r) c r s

/-- HST (R289). -/
def execHst (t : BitVec 5) (v : BitVec 2) (l : BitVec 8) (c r : Reg) (s : State) : Out := hoistOp (.hst t v l c r) c r s

/-- HSTA (R290). -/
def execHsta (t : BitVec 5) (v : BitVec 2) (l : BitVec 8) (c r : Reg) (s : State) : Out := hoistOp (.hsta t v l c r) c r s

/-- HGTH (R291). -/
def execHgth (t : BitVec 5) (l : BitVec 8) (c r : Reg) (s : State) : Out := hoistOp (.hgth t l c r) c r s

/-- HSCT (R291). -/
def execHsct (t : BitVec 5) (v : BitVec 1) (l : BitVec 8) (c r : Reg) (s : State) : Out := hoistOp (.hsct t v l c r) c r s

/-- HPF (R292). -/
def execHpf (l : BitVec 8) (c r : Reg) (s : State) : Out := hoistOp (.hpf l c r) c r s

/-- HCPY (R293). -/
def execHcpy (d y : BitVec 8) (c : Reg) (s : State) : Out := hoistExt (.hcpy d y c) c s

/-- HSEND (R294). -/
def execHsend (d y : BitVec 8) (c : Reg) (s : State) : Out := hoistExt (.hsend d y c) c s

/-- HFILL (R293). -/
def execHfill (d : BitVec 8) (c : Reg) (s : State) : Out := hoistExt (.hfill d c) c s

/-! ### Elements and formats -/

/-- An element of a copy: its place in the tile, its address in memory and whether it is the high nibble; no address
where it lies out of bounds. -/
structure Spot where
  i : Nat
  j : Nat
  addr : Option Nat
  hi : Bool
  deriving DecidableEq, Repr

/-- The memory element at indices, for tile element (i, j) (R73). An address of space 5 is that in its device
(R140). -/
def Layout.spot (y : Layout) (i j : Nat) (idx : List Int) : Spot :=
  if y.inBounds idx then
    ⟨i, j, some (if y.space = 5 then y.address idx % 2 ^ 38 else y.address idx), y.efmt == 3 && y.nibble idx⟩
  else ⟨i, j, none, false⟩

/-- The element of memory paired with tile element (i, j) (R278, R291). -/
def Copy.pair (p : Copy) (y : Layout) (i j : Nat) : Spot :=
  let o : List Int := if (hoistForm p.instr).code % 2 = 1 then [i, j] else [j, i]
  let idx := y.index p.coords o
  y.spot i j (if hoistIndexed p.instr then [idx.getD 0 0, p.index.getD i 0] else idx)

/-- Elements in a memory row, and memory rows, of a transfer of a tile (R278). -/
def Copy.rowShape (p : Copy) (t : Tile) : Nat × Nat :=
  if (hoistForm p.instr).code % 2 = 1 then (t.rows, t.cols) else (t.cols, t.rows)

/-- Tile bytes of a memory row. -/
def Copy.rowSize (p : Copy) (t : Tile) : Nat := ((p.rowShape t).1 * fmtBits t.fmt + 7) / 8

/-- Memory rows in a chunk (R285): the most whose tile bytes total at most 4 KiB. -/
def Copy.rowsPerChunk (p : Copy) (t : Tile) : Nat := max 1 (4096 / p.rowSize t)

/-- The elements of memory row r. -/
def Copy.row (p : Copy) (y : Layout) (t : Tile) (r : Nat) : List Spot :=
  (List.range (p.rowShape t).1).map fun e => if (hoistForm p.instr).code % 2 = 1 then p.pair y e r else p.pair y r e

/-- The memory rows of the next chunk, with their numbers. -/
def Copy.chunkRows (p : Copy) (y : Layout) (t : Tile) : List (Nat × List Spot) :=
  let n := p.rowsPerChunk t
  ((List.range n).map (p.chunk * n + ·)).filterMap fun r => if r < (p.rowShape t).2 then some (r, p.row y t r) else none

/-- A tile format and a layout format that R279 pairs. -/
def formatPair (a b : Nat) : Bool := a == b || [(1, 0), (0, 1), (7, 0), (7, 5), (0, 7), (5, 7)].contains (a, b)

/-- An element carried from one format to another (R279). -/
def carry (src dst code : Nat) : Nat × Status :=
  if (src = 1 ∧ dst = 0) ∨ (src = 0 ∧ dst = 1) then roundTo dst 0 true (codeVal src code)
  else (code, {})

/-- Code of the fill value of a layout (R73, R280). -/
def Layout.fillCode (y : Layout) : Nat := if y.fill then fmtNan y.efmt else 0

/-- Bytes of consecutive elements. -/
def packCodes (f : Nat) (codes : List Nat) : List Byte :=
  if f = 3 then (packNibbles [] 0 codes).map fun p => p.2 else codes.flatMap (leBytes (fmtBytes f))

/-- The first `n` elements of consecutive bytes. -/
def unpackCodes (f : Nat) (bs : List Byte) (n : Nat) : List Nat :=
  (List.range n).map fun e =>
    if f = 3 then (bs.getD (e / 2) 0).toNat / 16 ^ (e % 2) % 16
    else leNat ((bs.drop (e * fmtBytes f)).take (fmtBytes f))

/-- Bytes that a number of elements take. -/
def sizeOf (f n : Nat) : Nat := (n * fmtBits f + 7) / 8

/-- In-bounds elements. -/
def inside (l : List Spot) : List Spot := l.filter fun e => e.addr.isSome

/-- Elements out of bounds. -/
def outside (l : List Spot) : Nat := (l.filter fun e => e.addr.isNone).length

/-! ### Start (R283, R284) -/

/-- The trailer conditions of R281. -/
def Copy.trailerForm (p : Copy) (y : Layout) (t : Tile) : Bool :=
  (match p.instr with
  | .hld .. => true
  | .hst .. => true
  | _ => false) &&
  (hoistForm p.instr).code % 2 == 0 && y.stride.headD 0 == (if y.efmt = 3 then 1 else fmtBytes y.efmt : Nat) &&
  lane p.coords 0 == 0 && y.ext.headD 0 == t.cols && [0, 1, 2, 4].contains y.space

/-- Byte offset of an index list (R291). -/
def Copy.listAt (p : Copy) : Nat := field p.coords 32 32

/-- The checks of a tile copy at its claim: cause and %trapinfo (R279, R281, R290, R291). -/
def Core.tileCopyChecks (c : Core) (p : Copy) (y : Layout) (t : Tile) : Option (Nat × Word) :=
  if (if hoistAdds p.instr then decide (2 ≤ y.efmt) || t.fmt == 7 else !formatPair t.fmt y.efmt) then
    some (0x07, layoutInfo y.num 3)
  else if hoistIndexed p.instr then
    if y.ndim ≠ 1 ∨ y.trl then some (0x07, layoutInfo y.num 9)
    else if p.listAt % 4 ≠ 0 then some (0x09, word p.listAt)
    else if c.scratchSizeAt (some p.issued) < p.listAt + 4 * t.rows then some (0x0B, word p.listAt)
    else none
  else if y.trl && !p.trailerForm y t then some (0x07, layoutInfo y.num 9)
  else none

/-- The checks of HCPY, HSEND and HFILL at their start (R293). -/
def State.extChecks (s : State) (k : Nat) (p : Copy) : Option (Nat × Word) :=
  let f := hoistForm p.instr
  let d := s.rawLayout k f.mem
  match f.src with
  | none => if d.trl then some (0x07, layoutInfo d.num 9) else none
  | some n =>
    let y := s.rawLayout k n
    if formatPair y.efmt d.efmt = false then some (0x07, layoutInfo y.num 3)
    else if d.trl then some (0x07, layoutInfo d.num 9)
    else if y.trl ∨ y.ndim ≠ d.ndim then some (0x07, layoutInfo y.num 9)
    else none

/-- The checks a copy meets when it starts (R283). A tile that a CARVE has removed since the copy issued raises cause 0x05, as at
issue; R283 names no such check at the claim (log 77). -/
def State.copyChecks (s : State) (k : Nat) (p : Copy) : Option (Nat × Word) :=
  let c := s.core k
  let f := hoistForm p.instr
  match f.tile with
  | some t =>
    if c.ntiles ≤ t then some (0x05, rangeInfo t c.ntiles) else c.tileCopyChecks p (s.rawLayout k f.mem) (c.tile t)
  | none =>
    match p.instr with
    | .hpf .. => none
    | _ => s.extChecks k p

/-- The index list as it stands in core scratch (R291). -/
def Core.indexList (c : Core) (p : Copy) (rows : Nat) : List Int :=
  (List.range rows).map fun i => signed 32 (leNat (trun 0 c.scratch (p.listAt + 4 * i) 4))

/-- Elements a copy between layouts acts over (R293). -/
def extTotal (d : Layout) : Nat := ((List.range (d.ndim + 1)).map fun k => d.ext.getD k 0).foldl (· * ·) 1

/-- Elements in a chunk of a copy between layouts (R285). -/
def extPerChunk (d : Layout) : Nat := 32768 / fmtBits d.efmt

/-- Chunks of a copy (R285). HPF goes by 16 of its 128 rows, and does nothing under POL = no-allocate (R292). -/
def State.chunksOf (s : State) (k : Nat) (p : Copy) : Nat :=
  let f := hoistForm p.instr
  let y := s.rawLayout k f.mem
  match f.tile with
  | some n =>
    let t := (s.core k).tile n
    ((p.rowShape t).2 + p.rowsPerChunk t - 1) / p.rowsPerChunk t
  | none =>
    match p.instr with
    | .hpf .. => if y.pol = 3 then 0 else 8
    | _ => (extTotal y + extPerChunk y - 1) / extPerChunk y

/-- Replaces the copy at the head of the hoist. -/
def Core.setCopy (c : Core) (p : Copy) : Core := { c with copies := p :: c.copies.drop 1 }

/-- Claims the tile of a copy and reads its index list. -/
def State.startCopy (s : State) (k : Nat) (p : Copy) : State :=
  let c := (s.core k).claim (copyUses p.instr)
  let list := match (hoistForm p.instr).tile with
    | some t => if hoistIndexed p.instr then c.indexList p (c.tile t).rows else []
    | none => []
  (s.setCore k (c.setCopy { p with started := true, index := list, since := s.order, status := if s.chunksOf k p = 0 then some 0 else none })).tick

/-- HOIST_COPY_START (R283, R284): the oldest copy starts once its stream's earlier accesses are performed and its
tile accepts it. A failed check ends it with status 6. -/
def execHoistCopyStart (k : Nat) (s : State) : Out :=
  match (s.core k).copies with
  | [] => .next s
  | p :: _ =>
    let c := s.core k
    if p.started || p.status.isSome || !s.unitsRun k || c.accessesBefore .h p.issued || !c.accepts (copyUses p.instr) then
      .next s
    else
      match s.copyChecks k p with
      | some f => .next ((s.setCore k (c.setCopy { p with status := some 6 })).raiseAt k .h f.1 f.2 p.hdr p.off)
      | none => .next (s.startCopy k p)

/-! ### Chunks (R285 to R294) -/

/-- How an attempt at a chunk ends. -/
inductive ChunkEnd where
  /-- performed, with the bytes a byte-mode phaser counts -/
  | landed (bytes : Nat)
  /-- a FIFO bank or a contributor's turn holds it -/
  | waits
  /-- nothing performed; the chunk is tried again after RETT (R287) -/
  | fault (f : MemFail)
  /-- the copy ends, with a trap (R287) -/
  | broken (status cause : Nat) (info : Word)
  /-- the copy ends, with no trap (R294) -/
  | over (status : Nat)
  deriving DecidableEq, Repr

/-- An element with the locations of its bytes; none where it is out of bounds. -/
structure Put where
  spot : Spot
  locs : List Loc
  deriving DecidableEq, Repr

/-- Finds where the in-bounds elements of a run live (R140, R141). Space 5 is this device's own memory here. -/
def State.placeRun (s : State) (k : Nat) (y : Layout) (need : Need) : List Spot → State × Except MemFail (List Put)
  | [] => (s, .ok [])
  | e :: es =>
    match e.addr with
    | none =>
      match s.placeRun k y need es with
      | (s1, .ok l) => (s1, .ok (⟨e, []⟩ :: l))
      | r => r
    | some a =>
      match s.locate k (if y.space = 5 then 4 else y.space) a (fmtBytes y.efmt) need with
      | (s1, .error f) => (s1, .error f)
      | (s1, .ok ls) =>
        match s1.placeRun k y need es with
        | (s2, .ok l) => (s2, .ok (⟨e, ls⟩ :: l))
        | r => r

/-- Address of a row's trailer (R281). -/
def Layout.trailerAddr (y : Layout) (idx : List Int) : Nat :=
  let t := (y.ext.headD 0 * fmtBits y.efmt + 127) / 128 * 16
  let sum := ((List.range y.ndim).map fun k => idx.getD (k + 1) 0 * y.stride.getD (k + 1) 0).foldl (· + ·) 0
  y.swizzle ((((y.base : Int) + sum + t) % 2 ^ 57).toNat)

/-- A memory row with its trailer, if it has one. -/
structure PutRow where
  row : Nat
  puts : List Put
  trl : Option (Nat × List Loc)
  deriving DecidableEq, Repr

/-- Finds where the rows of a chunk live, trailers of in-bounds rows included (R280, R281). -/
def State.placeRows (s : State) (k : Nat) (p : Copy) (y : Layout) (need : Need) :
    List (Nat × List Spot) → State × Except MemFail (List PutRow)
  | [] => (s, .ok [])
  | (r, es) :: rs =>
    match s.placeRun k y need es with
    | (s1, .error f) => (s1, .error f)
    | (s1, .ok puts) =>
      if y.trl && es.any fun e => e.addr.isSome then
        let a := y.trailerAddr (y.index p.coords [0, r])
        match s1.locate k y.space a 16 need with
        | (s2, .error f) => (s2, .error f)
        | (s2, .ok ls) =>
          match s2.placeRows k p y need rs with
          | (s3, .ok l) => (s3, .ok (⟨r, puts, some (a, ls)⟩ :: l))
          | x => x
      else
        match s1.placeRows k p y need rs with
        | (s2, .ok l) => (s2, .ok (⟨r, puts, none⟩ :: l))
        | x => x

/-- The code read at an element, nothing where it is out of bounds. -/
def State.codeOf (s : State) (k f : Nat) (q : Put) : Option Nat :=
  if q.spot.addr.isNone then none
  else if f = 3 then some (s.coreRead k q.locs / (if q.spot.hi then 16 else 1) % 16)
  else some (s.coreRead k q.locs)

/-- Address of the first element of a run with a bad byte (R179). -/
def badPut (bad : Loc → Bool) (l : List Put) : Option Nat := (l.find? fun q => q.locs.any bad).map fun q => q.spot.addr.getD 0

/-- Locations of the bytes of a run. -/
def putLocs (l : List Put) : List Loc := l.flatMap fun q => q.locs

/-! #### FIFO banks (R142) -/

/-- A FIFO bank refuses a chunk, lets it wait, or serves it. -/
inductive BankAnswer where
  | refused (f : MemFail)
  | waits
  | serves
  deriving DecidableEq, Repr

/-- What a bank answers to a chunk that removes or appends `n` bytes. -/
def State.askBank (s : State) (k bank n since : Nat) (reads : Bool) : BankAnswer :=
  let cl := clusterOf k
  let c := s.cluster cl
  if c.mode bank ≠ some 2 ∨ (reads = false ∧ (tfind c.bankBusy bank).isSome) then .refused ⟨0x0B, word bank⟩
  else if s.fifoAhead cl bank reads since then .waits
  else if reads then (if (s.fifoBytes cl bank).length < n then .waits else .serves)
  else (if fifoSize < (s.fifoBytes cl bank).length + n then .waits else .serves)

/-- Removes bytes from the head of a bank, or appends them at its tail; both are actions of R135. -/
def State.fifoMove (s : State) (k bank : Nat) (bs : List Byte) (n : Nat) : State :=
  let cl := clusterOf k
  let s1 := s.takeFifo cl bank n
  ((s1.setFifo cl bank (s1.fifoBytes cl bank ++ bs)).charge k (200 * (n + bs.length))).commit k

/-- Gives codes to the in-bounds elements of a run, in order. -/
def assign : List Spot → List Nat → List (Option Nat)
  | [], _ => []
  | e :: es, codes =>
    match e.addr, codes with
    | some _, c :: cs => some c :: assign es cs
    | some _, [] => some 0 :: assign es []
    | none, cs => none :: assign es cs

/-! #### Loads -/

/-- A row written into its tile (R279, R280): converted codes, scale codes 127 or those of the trailer, status. -/
def Tile.loadRow (t : Tile) (y : Layout) (i : Nat) (codes : List (Option Nat)) (scales : Option (List Nat)) : Tile :=
  let rs := codes.map fun c => carry y.efmt t.fmt (c.getD y.fillCode)
  let t1 := (t.setRow i (rs.map Prod.fst)).merge (Status.all (rs.map Prod.snd))
  match scales with
  | some l => if scaled t.fmt then { t1 with data := setScales t1.data i l } else t1
  | none => t1

/-- The trailer a row must have, against the 16 bytes read (R282). -/
def trailerOk (y : Layout) (codes : List Nat) (raw : List Byte) : Bool :=
  let e (n : Nat) : Nat := leNat ((raw.drop (4 * n)).take 4)
  let sb := if scaled y.efmt then (raw.drop 4).take 4 else []
  e 0 == crc32c (packCodes y.efmt codes ++ sb) && e 2 % 1024 == y.efmt + 8 * (y.ext.headD 0 - 1) &&
    e 2 / 2 ^ 17 == 0 && e 3 == 0

/-- Loads the rows of a chunk in order, until one holds an error or fails its trailer (R282, R287). -/
def State.loadRows (s : State) (k tile : Nat) (y : Layout) : List PutRow → State × Option (Nat × Nat × Word)
  | [] => (s, none)
  | q :: qs =>
    let codes := q.puts.map (s.codeOf k y.efmt)
    let t := (s.core k).tile tile
    let bad := match badPut (s.readBad k) q.puts, q.trl with
      | some a, _ => some a
      | none, some (a, ls) => if ls.any (s.readBad k) then some a else none
      | none, none => none
    match bad with
    | some a => (s, some (5, 0x13, word (a % 2 ^ 57)))
    | none =>
      let s1 := s.afterRead k false (putLocs q.puts ++ ((q.trl.map Prod.snd).getD []))
      let keep (scales : Option (List Nat)) : State := s1.setCore k ((s1.core k).setTile tile (t.loadRow y q.row codes scales))
      match q.trl with
      | none => (keep none).loadRows k tile y qs
      | some (a, ls) =>
        let raw := ls.map (s.coreGet k)
        if trailerOk y (codes.map fun c => c.getD 0) raw then
          (keep (some (((raw.drop 4).take 4).map BitVec.toNat))).loadRows k tile y qs
        else (s1, some (4, 0x14, word (a % 2 ^ 57 + 2 ^ 57 * q.row)))

/-- Rows of a chunk loaded from the bytes of a FIFO bank. -/
def Core.loadBank (c : Core) (tile : Nat) (y : Layout) : List (Nat × List Spot) → List Nat → Core
  | [], _ => c
  | (r, es) :: rs, codes =>
    let n := (inside es).length
    (c.setTile tile ((c.tile tile).loadRow y r (assign es codes) none)).loadBank tile y rs (codes.drop n)

/-- A chunk of HLD or HGTH (R278 to R282, R288). -/
def State.loadChunk (s : State) (k : Nat) (p : Copy) (y : Layout) (tile : Nat) : State × ChunkEnd :=
  let t := (s.core k).tile tile
  let rows := p.chunkRows y t
  let bytes := rows.length * p.rowSize t
  if y.space = 3 then
    let n := (rows.map fun r => (inside r.2).length).foldl (· + ·) 0
    let bank := y.base % 64
    match s.askBank k bank (sizeOf y.efmt n) p.since true with
    | .refused f => (s, .fault f)
    | .waits => (s, .waits)
    | .serves =>
      let codes := unpackCodes y.efmt (s.fifoBytes (clusterOf k) bank) n
      let s1 := s.fifoMove k bank [] (sizeOf y.efmt n)
      if s.fifoError (clusterOf k) bank (sizeOf y.efmt n) then (s1, .broken 5 0x13 (word y.base))
      else (s1.setCore k ((s1.core k).loadBank tile y rows codes), .landed bytes)
  else
    match s.placeRows k p y ⟨true, false, false, false, some p.issued⟩ rows with
    | (s1, .error f) => (s1, .fault f)
    | (s1, .ok qs) =>
      match s1.loadRows k tile y qs with
      | (s2, none) => (s2, .landed bytes)
      | (s2, some (status, cause, info)) => (s2, .broken status cause info)

/-! #### Stores -/

/-- Writes one element: a nibble is merged into its byte (R73). -/
def State.putCode (s : State) (k f : Nat) (q : Put) (code : Nat) : State :=
  if q.spot.addr.isNone then s
  else if f = 3 then
    (s.coreThroughAll k (q.locs.zip [BitVec.ofNat 8 (withNibble (s.coreRead k q.locs) q.spot.hi code)])).commitLoc k q.locs
  else (s.coreThroughAll k (q.locs.zip (leBytes q.locs.length code))).commitLoc k q.locs

/-- Writes a run of elements. -/
def State.putCodes (s : State) (k f : Nat) : List (Put × Nat) → State
  | [] => s
  | (q, code) :: l => (s.putCode k f q code).putCodes k f l

/-- A row's codes in the layout's format, with the status its conversion raises. -/
def rowCodes (t : Tile) (y : Layout) (es : List Spot) : List (Nat × Status) :=
  es.map fun e => carry t.fmt y.efmt (t.code e.i e.j)

/-- The trailer bytes of a row as stored (R282). -/
def rowTrailer (t : Tile) (y : Layout) (i : Nat) (codes : List Nat) : List Byte :=
  (trailer y.efmt (y.ext.headD 0) i (packCodes y.efmt codes) ((List.range 4).map (t.blockScale i))).flatMap (leBytes 4)

/-- Stores the rows of a chunk, trailers included. -/
def State.storeRows (s : State) (k : Nat) (y : Layout) (t : Tile) : List PutRow → State
  | [] => s
  | q :: qs =>
    let codes := (rowCodes t y (q.puts.map fun x => x.spot)).map Prod.fst
    let s1 := (s.putCodes k y.efmt (q.puts.zip codes)).chargeLocs k (onceEach (putLocs q.puts))
    (match q.trl with
    | none => s1
    | some (_, ls) =>
      ((s1.coreThroughAll k (ls.zip (rowTrailer t y q.row codes))).chargeLocs k ls).commitLoc k ls).storeRows k y t qs

/-- In-bounds bytes of rows, with 16 for each trailer (R288). -/
def storedBytes (y : Layout) (rows : List (Nat × List Spot)) : Nat :=
  (rows.map fun r => sizeOf y.efmt (inside r.2).length + (if y.trl ∧ inside r.2 ≠ [] then 16 else 0)).foldl (· + ·) 0

/-- What a store leaves in the tensor statistics: status and drops (R73, R279). -/
def State.storeStats (s : State) (k : Nat) (y : Layout) (x : Status) (dropped : Nat) : State :=
  (s.statBits k y.tid x.ov x.nv x.sat).drops k y.tid dropped

/-- A chunk of HST (R278 to R282). The conversion of an element that is dropped raises its status too (log 91). -/
def State.storeChunk (s : State) (k : Nat) (p : Copy) (y : Layout) (tile : Nat) : State × ChunkEnd :=
  let t := (s.core k).tile tile
  let rows := p.chunkRows y t
  let es := rows.flatMap Prod.snd
  let x := Status.all ((rowCodes t y es).map Prod.snd)
  if y.space = 3 then
    let codes := (rowCodes t y (inside es)).map Prod.fst
    let bs := packCodes y.efmt codes
    match s.askBank k (y.base % 64) bs.length p.since false with
    | .refused f => (s, .fault f)
    | .waits => (s, .waits)
    | .serves => ((s.fifoMove k (y.base % 64) bs 0).storeStats k y x (outside es), .landed (storedBytes y rows))
  else
    match s.placeRows k p y ⟨false, true, false, false, some p.issued⟩ rows with
    | (s1, .error f) => (s1, .fault f)
    | (s1, .ok qs) => ((s1.storeRows k y t qs).storeStats k y x (outside es), .landed (storedBytes y rows))

/-! #### Additions -/

/-- The elements of one row added at their homes, in one indivisible update (R290). -/
def State.addRow (s : State) (k : Nat) (y : Layout) (t : Tile) : List Put → State × Status
  | [] => (s, {})
  | q :: qs =>
    if q.spot.addr.isNone then s.addRow k y t qs
    else
      let r := s.addAt (s.keyOf k) y.efmt q.locs (t.value 0 q.spot.i q.spot.j)
      let x := (r.1.commitLoc k q.locs).addRow k y t qs
      (x.1, r.2.or x.2)

/-- What adding rows has done: the state, the status, the elements of the rows performed that lie out of bounds, and the address of
an uncorrectable error that ended it. -/
structure Added where
  next : State
  status : Status
  dropped : Nat
  bad : Option Nat

/-- Adds the rows of a chunk in order, until one holds an uncorrectable error (R287). -/
def State.addRows (s : State) (k : Nat) (y : Layout) (t : Tile) : List PutRow → Added
  | [] => ⟨s, {}, 0, none⟩
  | q :: qs =>
    let s0 := s.syncSectors k (putLocs q.puts)
    match badPut s0.locBad q.puts with
    | some a => ⟨s0, {}, 0, some a⟩
    | none =>
      let r := (s0.chargeLocs k (putLocs q.puts)).addRow k y t q.puts
      let x := r.1.addRows k y t qs
      ⟨x.next, r.2.or x.status, outside (q.puts.map fun p => p.spot) + x.dropped, x.bad⟩

/-- A chunk of HSTA or HSCT in this device's memory (R290, R291). OV and NV alone go into the statistics. -/
def State.addChunk (s : State) (k : Nat) (p : Copy) (y : Layout) (tile : Nat) : State × ChunkEnd :=
  let t := (s.core k).tile tile
  let rows := p.chunkRows y t
  match s.placeRows k p y ⟨false, true, false, false, some p.issued⟩ rows with
  | (s1, .error f) => (s1, .fault f)
  | (s1, .ok qs) =>
    let r := s1.addRows k y t qs
    let s2 := (r.next.statBits k y.tid r.status.ov r.status.nv false).drops k y.tid r.dropped
    match r.bad with
    | some a => (s2, .broken 5 0x13 (word (a % 2 ^ 57)))
    | none => (s2, .landed (storedBytes y rows))

/-! #### Copies between layouts (R293) -/

/-- Offsets of element n over a layout's extents, lane 0 innermost. -/
def extOffsets : List Nat → Nat → List Int
  | [], _ => []
  | e :: es, n => ((n % e : Nat) : Int) :: extOffsets es (n / e)

/-- The elements of the next chunk of a copy between layouts: where each lies in a layout. -/
def Copy.extRun (p : Copy) (d y : Layout) (coords : Word) : List Spot :=
  let n := extPerChunk d
  let l := ((List.range n).map (p.chunk * n + ·)).filter fun e => decide (e < extTotal d)
  l.map fun e => y.spot 0 e (y.index coords (extOffsets (d.ext.take (d.ndim + 1)) e))

/-- The source of a chunk: its codes, or how it stops. -/
def State.readRun (s : State) (k : Nat) (p : Copy) (y : Layout) (es : List Spot) :
    State × Except ChunkEnd (List (Option Nat)) :=
  if y.space = 3 then
    let n := (inside es).length
    match s.askBank k (y.base % 64) (sizeOf y.efmt n) p.since true with
    | .refused f => (s, .error (.fault f))
    | .waits => (s, .error .waits)
    | .serves =>
      if s.fifoError (clusterOf k) (y.base % 64) (sizeOf y.efmt n) then
        (s.fifoMove k (y.base % 64) [] (sizeOf y.efmt n), .error (.broken 5 0x13 (word y.base)))
      else (s, .ok (assign es (unpackCodes y.efmt (s.fifoBytes (clusterOf k) (y.base % 64)) n)))
  else
    match s.placeRun k y ⟨true, false, false, false, some p.issued⟩ es with
    | (s1, .error f) => (s1, .error (.fault f))
    | (s1, .ok l) =>
      match badPut (s1.readBad k) l with
      | some a => (s1, .error (.broken 5 0x13 (word (a % 2 ^ 57))))
      | none => (s1.afterRead k false (putLocs l), .ok (l.map (s1.codeOf k y.efmt)))

/-- Takes what a chunk has read off a FIFO source, once it is performed. -/
def State.consumeRun (s : State) (k : Nat) (y : Layout) (es : List Spot) : State :=
  if y.space = 3 then s.fifoMove k (y.base % 64) [] (sizeOf y.efmt (inside es).length) else s

/-- The destination of a chunk: its in-bounds elements written. -/
def State.writeRun (s : State) (k : Nat) (p : Copy) (d : Layout) (es : List Spot) (codes : List Nat) :
    State × ChunkEnd :=
  let bytes := sizeOf d.efmt (inside es).length
  if d.space = 3 then
    let bs := packCodes d.efmt ((es.zip codes).filterMap fun x => if x.1.addr.isSome then some x.2 else none)
    match s.askBank k (d.base % 64) bs.length p.since false with
    | .refused f => (s, .fault f)
    | .waits => (s, .waits)
    | .serves => (s.fifoMove k (d.base % 64) bs 0, .landed bytes)
  else
    match s.placeRun k d ⟨false, true, false, false, some p.issued⟩ es with
    | (s1, .error f) => (s1, .fault f)
    | (s1, .ok l) => ((s1.putCodes k d.efmt (l.zip codes)).chargeLocs k (onceEach (putLocs l)), .landed bytes)

/-- What HCPY or HFILL leaves once its chunk has landed. -/
def State.ranRun (s : State) (k : Nat) (d y : Layout) (ds ss : List Spot) (x : Status) : State :=
  ((s.consumeRun k y ss).storeStats k d x (outside ds))

/-- A chunk of HCPY or HFILL (R293). One that waits for room in its destination has moved nothing yet, and is charged nothing (R409). -/
def State.extChunk (s : State) (k : Nat) (p : Copy) (d : Layout) (src : Option Layout) : State × ChunkEnd :=
  let ds := p.extRun d d p.coords
  match src with
  | none =>
    let codes := ds.map fun _ => p.second.toNat % 2 ^ fmtBits d.efmt
    match s.writeRun k p d ds codes with
    | (s1, .landed n) => (s1.storeStats k d {} (outside ds), .landed n)
    | r => r
  | some y =>
    let ss := p.extRun d y p.second
    match s.readRun k p y ss with
    | (s1, .error e) => (s1, e)
    | (s1, .ok codes) =>
      let cs := codes.map fun c => carry y.efmt d.efmt (c.getD y.fillCode)
      match s1.writeRun k p d ds (cs.map Prod.fst) with
      | (s2, .landed n) => (s2.ranRun k d y ds ss (Status.all (cs.map Prod.snd)), .landed n)
      | (_, .waits) => (s, .waits)
      | r => r

/-! #### Other devices (R294) -/

/-- A chunk for space 5: where it goes and what stops it. -/
inductive Fabric where
  /-- the device itself, through its own DEVNUM -/
  | here
  /-- a device that a port reaches -/
  | away
  | holds
  | ends (status : Nat)
  deriving DecidableEq, Repr

/-- What the fabric answers to a chunk for a device and a phaser of it (R294, R413, R416). What another device answers is a free
value for each attempt (log 21). -/
def State.fabric (s : State) (k dev phaser : Nat) : Fabric :=
  if s.devnumSet = true ∧ dev = s.devnum then
    let p := s.dphaser (phaser - 65)
    if !p.alloc || p.part != (s.core k).part || !p.bytes || !p.contributes dev then .ends 2
    else if p.turnOf dev then .here
    else .holds
  else if (s.route dev).isNone then .ends 1
  else
    match Config.remoteAnswer s.draws with
    | 0 => .away
    | 1 => .ends 1
    | 2 => .ends 2
    | 3 => .holds

/-- Device number of a space-5 layout (R140). -/
def Layout.device (y : Layout) : Nat := y.base / 2 ^ 38 % 2 ^ 19

/-- Sends a chunk over a link: it leaves in order, and its bytes are charged on the on-die network, the ring and the link (R135,
R409, R413). -/
def State.sendChunk (s : State) (k dev : Nat) (c : RemoteChunk) (bytes : Nat) : State :=
  ((({ s with sent := (dev, c) :: s.sent }).charge k ((4000 + 640 * ringHops (dieOf k) ioDie) * bytes)).chargeNet
    (s.pcb (s.core k).part).tag bytes).commit k

/-- Counts a chunk at a device phaser of this device (R288, R416). -/
def State.deliverHere (s : State) (k phaser dev n : Nat) : State :=
  let s1 := s.setPhaser (clusterOf k) phaser ((s.phaser (clusterOf k) phaser).deliver dev n)
  (s1.commit k).serveInbound s1.inbound.length

/-- A chunk of HSTA whose layout names another device: FP32 values, and whether memory holds BF16 (R290, R294). A NaN sets NV
whatever memory holds; what else the additions raise there is a free value (log 21). -/
def State.sendAdds (s : State) (k : Nat) (p : Copy) (y : Layout) (tile : Nat) : State × ChunkEnd :=
  let t := (s.core k).tile tile
  let rows := p.chunkRows y t
  let es := rows.flatMap Prod.snd
  let vs := (inside es).map fun e => (e.addr.getD 0, t.value 0 e.i e.j)
  let x := Status.all (vs.map fun v => v.2.2)
  let c : RemoteChunk := ⟨y.bind, vs.map fun v => ⟨v.1, leBytes 4 (roundTo 0 0 true v.2.1).1, none⟩, true, y.efmt == 1⟩
  let free := Config.remoteStatus s.draws
  let nan := vs.any fun v => v.2.1.isNan
  let s1 := s.sendChunk k y.device c (storedBytes y rows)
  ((s1.statBits k y.tid (x.ov || free.1) (x.nv || nan || free.2) false).drops k y.tid (outside es), .landed 0)

/-- A chunk of HSTA through space 5. -/
def State.remoteAdd (s : State) (k : Nat) (p : Copy) (y : Layout) (tile : Nat) : State × ChunkEnd :=
  match s.fabric k y.device y.bind with
  | .ends n => (s.draw, .over n)
  | .holds => (s.draw, .waits)
  | .away => s.draw.sendAdds k p y tile
  | .here =>
    match s.addChunk k p y tile with
    | (s1, .landed n) => (s1.deliverHere k y.bind y.device n, .landed 0)
    | r => r

/-- A chunk of HSEND for another device. -/
def State.sendRun (s : State) (k : Nat) (p : Copy) (d y : Layout) : State × ChunkEnd :=
  let ds := p.extRun d d p.coords
  let ss := p.extRun d y p.second
  match s.readRun k p y ss with
  | (s1, .error e) => (s1, e)
  | (s1, .ok codes) =>
    let cs := codes.map fun c => carry y.efmt d.efmt (c.getD y.fillCode)
    let es := (ds.zip cs).filterMap fun x => x.1.addr.map fun a =>
      (⟨a, leBytes (fmtBytes d.efmt) x.2.1, if d.efmt = 3 then some x.1.hi else none⟩ : RemoteElem)
    let s2 := s1.sendChunk k d.device ⟨d.bind, es, false, false⟩ (sizeOf d.efmt (inside ds).length)
    (s2.ranRun k d y ds ss (Status.all (cs.map Prod.snd)), .landed 0)

/-- A chunk of HSEND (R294). -/
def State.remoteCopy (s : State) (k : Nat) (p : Copy) (d y : Layout) : State × ChunkEnd :=
  match s.fabric k d.device d.bind with
  | .ends n => (s.draw, .over n)
  | .holds => (s.draw, .waits)
  | .away => s.draw.sendRun k p d y
  | .here =>
    match s.extChunk k p d (some y) with
    | (s1, .landed n) => ((s1.commit k).deliverHere k d.bind d.device n, .landed 0)
    | r => r

/-! #### Prefetch (R292) -/

/-- Locations of the bytes of rows, trailers included. -/
def rowLocs (l : List PutRow) : List Loc := l.flatMap fun q => putLocs q.puts ++ ((q.trl.map Prod.snd).getD [])

/-- A chunk of HPF: its pages are translated, and the rows with their trailers move to the cluster cache; one that fails is
skipped. -/
def State.prefetchChunk (s : State) (k : Nat) (p : Copy) (y : Layout) : State × Bool :=
  let rows := (List.range 16).map fun i =>
    let r := 16 * p.chunk + i
    (r, (List.range (2048 / fmtBits y.efmt)).map fun j => y.spot r j (y.index p.coords [(j : Int), (r : Int)]))
  match s.placeRows k p y ⟨true, false, false, false, some p.issued⟩ rows with
  | (s1, .error _) => (s1, true)
  | (s1, .ok l) => if (rowLocs l).any s1.locBad then (s1, true) else (s1.chargeLocs k (onceEach (rowLocs l)), false)

/-! #### The chunk as a step -/

/-- One attempt at the next chunk of a copy. -/
def State.tryChunk (s : State) (k : Nat) (p : Copy) : State × ChunkEnd :=
  let f := hoistForm p.instr
  let y := s.rawLayout k f.mem
  match f.tile, f.src with
  | some t, _ =>
    if hoistAdds p.instr then (if y.space = 5 then s.remoteAdd k p y t else s.addChunk k p y t)
    else if f.load then s.loadChunk k p y t
    else s.storeChunk k p y t
  | none, some n => if y.space = 5 then s.remoteCopy k p y (s.rawLayout k n) else s.extChunk k p y (some (s.rawLayout k n))
  | none, none => s.extChunk k p y none

/-- Counts the bytes of a chunk at the byte-mode phaser its layout is bound to (R288, R198). -/
def State.countBytes (s : State) (k : Nat) (y : Layout) (n : Nat) : State :=
  let p := s.phaser (clusterOf k) y.bind
  if n ≠ 0 ∧ s.phaserOwned (clusterOf k) (s.core k).part y.bind ∧ p.bytes then
    (s.setPhaser (clusterOf k) y.bind { p with arrived := p.arrived + n }).commit k
  else s

/-- The copy moves to its next chunk, or has ended. -/
def State.chunkDone (s : State) (k : Nat) (p : Copy) (skipped : Bool) : State :=
  let q := { p with chunk := p.chunk + 1, skipped := p.skipped || skipped, since := s.order }
  let ended := decide (s.chunksOf k p ≤ q.chunk)
  (s.setCore k ((s.core k).setCopy { q with status := if ended then some (if q.skipped then 3 else 0) else none })).tick

/-- HOIST_CHUNK (R285): one chunk of the copy at work, where nothing stops the core. -/
def execHoistChunk (k : Nat) (s : State) : Out :=
  match (s.core k).copies with
  | [] => .next s
  | p :: _ =>
    if !p.started || p.status.isSome || p.stopped || !s.unitsRun k then .next s
    else
      let y := s.rawLayout k (hoistForm p.instr).mem
      match p.instr with
      | .hpf .. =>
        let r := s.prefetchChunk k p y
        .next (r.1.chunkDone k p r.2)
      | _ =>
        match s.tryChunk k p with
        | (s1, .landed n) => .next ((s1.countBytes k y n).chunkDone k p false)
        | (s1, .waits) => .next s1
        | (s1, .fault f) =>
          .next ((s1.setCore k ((s1.core k).setCopy { p with stopped := true })).raiseAt k .h f.cause f.info p.hdr p.off)
        | (s1, .broken status cause info) =>
          .next ((s1.setCore k ((s1.core k).setCopy { p with status := some status })).raiseAt k .h cause info p.hdr p.off)
        | (s1, .over status) => .next (s1.setCore k ((s1.core k).setCopy { p with status := some status }))

/-! ### Completion (R286, R287) -/

/-- The tile of a copy that a trap has ended: released and left empty (R287). -/
def Tile.breakOff (t : Tile) (u : Use) : Tile :=
  let x := t.unclaim u
  { x with full := t.override.getD false, override := if x.claimed then t.override else none }

/-- Releases the claim of a copy that has ended with a status. -/
def Core.endCopy (c : Core) (p : Copy) (status : Nat) : Core :=
  if p.started = false then c
  else if status = 4 ∨ status = 5 then
    (copyUses p.instr).foldl (fun c u => c.setTile u.tile ((c.tile u.tile).breakOff u)) c
  else c.release (copyUses p.instr)

/-- The copies behind the one that has completed: the next begins to wait (R63). -/
def nextCopies (l : List Copy) (now : Nat) : List Copy :=
  (l.drop 1).mapIdx fun n p => if n = 0 then { p with since := now } else p

/-- HOIST_COPY_COMPLETE (R286): the claim is released and the token written. -/
def execHoistCopyComplete (k : Nat) (s : State) : Out :=
  match (s.core k).copies with
  | [] => .next s
  | p :: _ =>
    match p.status with
    | none => .next s
    | some status =>
      if !s.completes k then .next s
      else
        let c := (s.core k).endCopy p status
        let s1 := (s.setCore k { c with copies := nextCopies c.copies s.order }).tick
        .next ((s1.setReg k .h (BitVec.ofNat 5 p.token) (word (p.ordinal.toNat + 2 ^ 32 * status))).enterTrap k)

end Sys2Proof.Machine
end

