-- ==== Sys2Proof/Machine/Scalar.lean ====
section
/-! DEFINITION. The scalar instructions: SR, SI and MV, and the 16-bit forms that stand for them (R82, R165 to
R172). -/

namespace Sys2Proof.Machine

/-- A scalar instruction of `len` halfwords: it stalls while a register it reads or writes is pending (R166), then
writes f to its destination and retires. -/
def scalar (len : Nat) (reads : List Reg) (d : Reg) (f : (Reg → Word) → Word) (s : State) : Out :=
  onTurn s fun k st =>
    if s.anyPending k st (d :: reads) then s.waitOn k st .register
    else (s.setReg k st d (f (s.reg k st))).retire k st len

/-! ### What the functions compute (R167 to R170) -/

/-- Bits [127:64] of the signed product (R167). -/
def mulHighSigned (a b : Word) : Word := wordI (a.toInt * b.toInt / 2 ^ 64)

/-- Bits [127:64] of the unsigned product (R167). -/
def mulHighUnsigned (a b : Word) : Word := word (a.toNat * b.toNat / 2 ^ 64)

/-- DIV (R168). -/
def divSigned (a b : Word) : Word := if b = 0 then -1 else wordI (a.toInt.tdiv b.toInt)

/-- REM (R168). -/
def remSigned (a b : Word) : Word := if b = 0 then a else wordI (a.toInt.tmod b.toInt)

/-- DIVU (R168). -/
def divUnsigned (a b : Word) : Word := if b = 0 then -1 else word (a.toNat / b.toNat)

/-- REMU (R168). -/
def remUnsigned (a b : Word) : Word := if b = 0 then a else word (a.toNat % b.toNat)

/-- Shift count of a register: its bits [5:0] (R167). -/
def shiftCount (b : Word) : Nat := b.toNat % 64

/-- imm16 at halfword position h (R170). -/
def placed (h : BitVec 2) (i : BitVec 16) : Word := i.setWidth 64 <<< (16 * h.toNat)

/-- ADD (R167). -/
def execAdd (d a b : Reg) (s : State) : Out := scalar 2 [a, b] d (fun r => r a + r b) s

/-- SUB (R167). -/
def execSub (d a b : Reg) (s : State) : Out := scalar 2 [a, b] d (fun r => r a - r b) s

/-- MUL (R167). -/
def execMul (d a b : Reg) (s : State) : Out := scalar 2 [a, b] d (fun r => r a * r b) s

/-- MULHS (R167). -/
def execMulhs (d a b : Reg) (s : State) : Out := scalar 2 [a, b] d (fun r => mulHighSigned (r a) (r b)) s

/-- MULHU (R167). -/
def execMulhu (d a b : Reg) (s : State) : Out := scalar 2 [a, b] d (fun r => mulHighUnsigned (r a) (r b)) s

/-- DIV (R168). -/
def execDiv (d a b : Reg) (s : State) : Out := scalar 2 [a, b] d (fun r => divSigned (r a) (r b)) s

/-- DIVU (R168). -/
def execDivu (d a b : Reg) (s : State) : Out := scalar 2 [a, b] d (fun r => divUnsigned (r a) (r b)) s

/-- REM (R168). -/
def execRem (d a b : Reg) (s : State) : Out := scalar 2 [a, b] d (fun r => remSigned (r a) (r b)) s

/-- REMU (R168). -/
def execRemu (d a b : Reg) (s : State) : Out := scalar 2 [a, b] d (fun r => remUnsigned (r a) (r b)) s

/-- AND (R167). -/
def execAnd (d a b : Reg) (s : State) : Out := scalar 2 [a, b] d (fun r => r a &&& r b) s

/-- OR (R167). -/
def execOr (d a b : Reg) (s : State) : Out := scalar 2 [a, b] d (fun r => r a ||| r b) s

/-- XOR (R167). -/
def execXor (d a b : Reg) (s : State) : Out := scalar 2 [a, b] d (fun r => r a ^^^ r b) s

/-- ANDN (R167). -/
def execAndn (d a b : Reg) (s : State) : Out := scalar 2 [a, b] d (fun r => r a &&& ~~~(r b)) s

/-- SHL (R167). -/
def execShl (d a b : Reg) (s : State) : Out := scalar 2 [a, b] d (fun r => r a <<< shiftCount (r b)) s

/-- SHR (R167). -/
def execShr (d a b : Reg) (s : State) : Out := scalar 2 [a, b] d (fun r => r a >>> shiftCount (r b)) s

/-- SAR (R167). -/
def execSar (d a b : Reg) (s : State) : Out := scalar 2 [a, b] d (fun r => (r a).sshiftRight (shiftCount (r b))) s

/-- MIN (R167). -/
def execMin (d a b : Reg) (s : State) : Out := scalar 2 [a, b] d (fun r => if (r a).slt (r b) then r a else r b) s

/-- MAX (R167). -/
def execMax (d a b : Reg) (s : State) : Out := scalar 2 [a, b] d (fun r => if (r a).slt (r b) then r b else r a) s

/-- MINU (R167). -/
def execMinu (d a b : Reg) (s : State) : Out := scalar 2 [a, b] d (fun r => if (r a).ult (r b) then r a else r b) s

/-- MAXU (R167). -/
def execMaxu (d a b : Reg) (s : State) : Out := scalar 2 [a, b] d (fun r => if (r a).ult (r b) then r b else r a) s

/-- SLT (R167). -/
def execSlt (d a b : Reg) (s : State) : Out := scalar 2 [a, b] d (fun r => flag (condLt (r a) (r b))) s

/-- SLTU (R167). -/
def execSltu (d a b : Reg) (s : State) : Out := scalar 2 [a, b] d (fun r => flag (condLtu (r a) (r b))) s

/-- SEQ (R167). -/
def execSeq (d a b : Reg) (s : State) : Out := scalar 2 [a, b] d (fun r => flag (condEq (r a) (r b))) s

/-- SNE (R167). -/
def execSne (d a b : Reg) (s : State) : Out := scalar 2 [a, b] d (fun r => flag (condNe (r a) (r b))) s

/-- CADD (R167). -/
def execCadd (d a b : Reg) (s : State) : Out := scalar 2 [a, b] d (fun r => laneAdd (r a) (r b)) s

/-- SEL (R167). -/
def execSel (d a b : Reg) (s : State) : Out :=
  scalar 2 [a, b] d (fun r => if r d = 0 then r b else r a) s

/-- CLZ (R167). -/
def execClz (d a : Reg) (s : State) : Out := scalar 2 [a] d (fun r => word (leadingZeros 64 (r a))) s

/-- POPC (R167). -/
def execPopc (d a : Reg) (s : State) : Out := scalar 2 [a] d (fun r => word (oneBits 64 (r a))) s

/-- CTZ (R167). -/
def execCtz (d a : Reg) (s : State) : Out := scalar 2 [a] d (fun r => word (trailingZeros 64 0 (r a))) s

/-- ADDI (R169). -/
def execAddi (d a : Reg) (i : BitVec 12) (s : State) : Out := scalar 2 [a] d (fun r => r a + signExt i) s

/-- ANDI (R169). -/
def execAndi (d a : Reg) (i : BitVec 12) (s : State) : Out := scalar 2 [a] d (fun r => r a &&& zeroExt i) s

/-- ORI (R169). -/
def execOri (d a : Reg) (i : BitVec 12) (s : State) : Out := scalar 2 [a] d (fun r => r a ||| zeroExt i) s

/-- XORI (R169). -/
def execXori (d a : Reg) (i : BitVec 12) (s : State) : Out := scalar 2 [a] d (fun r => r a ^^^ zeroExt i) s

/-- SLTI (R169). -/
def execSlti (d a : Reg) (i : BitVec 12) (s : State) : Out := scalar 2 [a] d (fun r => flag (condLt (r a) (signExt i))) s

/-- SLTUI (R169). -/
def execSltui (d a : Reg) (i : BitVec 12) (s : State) : Out := scalar 2 [a] d (fun r => flag (condLtu (r a) (zeroExt i))) s

/-- SEQI (R169). -/
def execSeqi (d a : Reg) (i : BitVec 12) (s : State) : Out := scalar 2 [a] d (fun r => flag (condEq (r a) (signExt i))) s

/-- MULI (R169). -/
def execMuli (d a : Reg) (i : BitVec 12) (s : State) : Out := scalar 2 [a] d (fun r => r a * signExt i) s

/-- SHLI (R169). -/
def execShli (d a : Reg) (n : BitVec 6) (s : State) : Out := scalar 2 [a] d (fun r => r a <<< n.toNat) s

/-- SHRI (R169). -/
def execShri (d a : Reg) (n : BitVec 6) (s : State) : Out := scalar 2 [a] d (fun r => r a >>> n.toNat) s

/-- SARI (R169). -/
def execSari (d a : Reg) (n : BitVec 6) (s : State) : Out := scalar 2 [a] d (fun r => (r a).sshiftRight n.toNat) s

/-- LDI (R170). -/
def execLdi (d : Reg) (h : BitVec 2) (i : BitVec 16) (s : State) : Out := scalar 2 [] d (fun _ => placed h i) s

/-- LDIN (R170). -/
def execLdin (d : Reg) (h : BitVec 2) (i : BitVec 16) (s : State) : Out := scalar 2 [] d (fun _ => ~~~(placed h i)) s

/-- INSI (R170). -/
def execInsi (d : Reg) (h : BitVec 2) (i : BitVec 16) (s : State) : Out := scalar 2 [] d (fun r => insertHalf (r d) h.toNat i) s

/-! ### The 16-bit forms (R82, R171) -/

/-- NOP (R82): it retires. -/
def execNop (s : State) : Out := onTurn s fun k st => s.retire k st 1

/-- MOV_16 (R82, R171). -/
def execMov16 (d a : Reg) (s : State) : Out := scalar 1 [a] d (fun r => r a) s

/-- ADD_16 (R82, R171). -/
def execAdd16 (d a : Reg) (s : State) : Out := scalar 1 [a] d (fun r => r d + r a) s

/-- SUB_16 (R82, R171). -/
def execSub16 (d a : Reg) (s : State) : Out := scalar 1 [a] d (fun r => r d - r a) s

/-- AND_16 (R82, R171). -/
def execAnd16 (d a : Reg) (s : State) : Out := scalar 1 [a] d (fun r => r d &&& r a) s

/-- OR_16 (R82, R171). -/
def execOr16 (d a : Reg) (s : State) : Out := scalar 1 [a] d (fun r => r d ||| r a) s

/-- XOR_16 (R82, R171). -/
def execXor16 (d a : Reg) (s : State) : Out := scalar 1 [a] d (fun r => r d ^^^ r a) s

/-- CADD_16 (R82, R171). -/
def execCadd16 (d a : Reg) (s : State) : Out := scalar 1 [a] d (fun r => laneAdd (r d) (r a)) s

/-- ADDI_16 (R82, R171). -/
def execAddi16 (d : Reg) (i : BitVec 5) (s : State) : Out := scalar 1 [] d (fun r => r d + signExt i) s

/-- LDI_16 (R82, R171). -/
def execLdi16 (d : Reg) (i : BitVec 5) (s : State) : Out := scalar 1 [] d (fun _ => signExt i) s

/-- SHLI_16 (R82, R171). -/
def execShli16 (d : Reg) (i : BitVec 5) (s : State) : Out := scalar 1 [] d (fun r => r d <<< i.toNat) s

/-- SHRI_16 (R82, R171). -/
def execShri16 (d : Reg) (i : BitVec 5) (s : State) : Out := scalar 1 [] d (fun r => r d >>> i.toNat) s

end Sys2Proof.Machine
end

