-- ==== Sys2Proof/Machine/Dispatch.lean ====
section
/-! DEFINITION. One arm per instruction: each a direct call of its meaning. -/

namespace Sys2Proof.Machine

def exec (i : Instr) (s : State) : Host.Outcome State Fault Refusal :=
  match i with
  | .mov16 d a => Sys2Proof.Machine.execMov16 d a s
  | .add16 d a => Sys2Proof.Machine.execAdd16 d a s
  | .sub16 d a => Sys2Proof.Machine.execSub16 d a s
  | .and16 d a => Sys2Proof.Machine.execAnd16 d a s
  | .or16 d a => Sys2Proof.Machine.execOr16 d a s
  | .xor16 d a => Sys2Proof.Machine.execXor16 d a s
  | .addi16 d x1 => Sys2Proof.Machine.execAddi16 d x1 s
  | .ldi16 d x1 => Sys2Proof.Machine.execLdi16 d x1 s
  | .shli16 d x1 => Sys2Proof.Machine.execShli16 d x1 s
  | .shri16 d x1 => Sys2Proof.Machine.execShri16 d x1 s
  | .cadd16 d a => Sys2Proof.Machine.execCadd16 d a s
  | .epost16 n => Sys2Proof.Machine.execEpost16 n s
  | .ewait16 n => Sys2Proof.Machine.execEwait16 n s
  | .tempty16 t => Sys2Proof.Machine.execTempty16 t s
  | .add d a b => Sys2Proof.Machine.execAdd d a b s
  | .sub d a b => Sys2Proof.Machine.execSub d a b s
  | .mul d a b => Sys2Proof.Machine.execMul d a b s
  | .mulhs d a b => Sys2Proof.Machine.execMulhs d a b s
  | .mulhu d a b => Sys2Proof.Machine.execMulhu d a b s
  | .div d a b => Sys2Proof.Machine.execDiv d a b s
  | .divu d a b => Sys2Proof.Machine.execDivu d a b s
  | .rem d a b => Sys2Proof.Machine.execRem d a b s
  | .remu d a b => Sys2Proof.Machine.execRemu d a b s
  | .and d a b => Sys2Proof.Machine.execAnd d a b s
  | .or d a b => Sys2Proof.Machine.execOr d a b s
  | .xor d a b => Sys2Proof.Machine.execXor d a b s
  | .andn d a b => Sys2Proof.Machine.execAndn d a b s
  | .shl d a b => Sys2Proof.Machine.execShl d a b s
  | .shr d a b => Sys2Proof.Machine.execShr d a b s
  | .sar d a b => Sys2Proof.Machine.execSar d a b s
  | .min d a b => Sys2Proof.Machine.execMin d a b s
  | .max d a b => Sys2Proof.Machine.execMax d a b s
  | .minu d a b => Sys2Proof.Machine.execMinu d a b s
  | .maxu d a b => Sys2Proof.Machine.execMaxu d a b s
  | .slt d a b => Sys2Proof.Machine.execSlt d a b s
  | .sltu d a b => Sys2Proof.Machine.execSltu d a b s
  | .seq d a b => Sys2Proof.Machine.execSeq d a b s
  | .sne d a b => Sys2Proof.Machine.execSne d a b s
  | .sel d a b => Sys2Proof.Machine.execSel d a b s
  | .clz d a => Sys2Proof.Machine.execClz d a s
  | .popc d a => Sys2Proof.Machine.execPopc d a s
  | .ctz d a => Sys2Proof.Machine.execCtz d a s
  | .cadd d a b => Sys2Proof.Machine.execCadd d a b s
  | .addi d a x1 => Sys2Proof.Machine.execAddi d a x1 s
  | .andi d a x1 => Sys2Proof.Machine.execAndi d a x1 s
  | .ori d a x1 => Sys2Proof.Machine.execOri d a x1 s
  | .xori d a x1 => Sys2Proof.Machine.execXori d a x1 s
  | .shli d a n => Sys2Proof.Machine.execShli d a n s
  | .shri d a n => Sys2Proof.Machine.execShri d a n s
  | .sari d a n => Sys2Proof.Machine.execSari d a n s
  | .slti d a x1 => Sys2Proof.Machine.execSlti d a x1 s
  | .sltui d a x1 => Sys2Proof.Machine.execSltui d a x1 s
  | .seqi d a x1 => Sys2Proof.Machine.execSeqi d a x1 s
  | .muli d a x1 => Sys2Proof.Machine.execMuli d a x1 s
  | .ldi d h x1 => Sys2Proof.Machine.execLdi d h x1 s
  | .insi d h x1 => Sys2Proof.Machine.execInsi d h x1 s
  | .ldin d h x1 => Sys2Proof.Machine.execLdin d h x1 s
  | .beq a b o => Sys2Proof.Machine.execBeq a b o s
  | .bne a b o => Sys2Proof.Machine.execBne a b o s
  | .blt a b o => Sys2Proof.Machine.execBlt a b o s
  | .bge a b o => Sys2Proof.Machine.execBge a b o s
  | .bltu a b o => Sys2Proof.Machine.execBltu a b o s
  | .bgeu a b o => Sys2Proof.Machine.execBgeu a b o s
  | .jmp o => Sys2Proof.Machine.execJmp o s
  | .call o => Sys2Proof.Machine.execCall o s
  | .jmpr a => Sys2Proof.Machine.execJmpr a s
  | .callr a => Sys2Proof.Machine.execCallr a s
  | .ldb d c l r => Sys2Proof.Machine.execLdb d c l r s
  | .ldbs d c l r => Sys2Proof.Machine.execLdbs d c l r s
  | .ldh d c l r => Sys2Proof.Machine.execLdh d c l r s
  | .ldhs d c l r => Sys2Proof.Machine.execLdhs d c l r s
  | .ldw d c l r => Sys2Proof.Machine.execLdw d c l r s
  | .ldws d c l r => Sys2Proof.Machine.execLdws d c l r s
  | .ldd d c l r => Sys2Proof.Machine.execLdd d c l r s
  | .ldf d c l r => Sys2Proof.Machine.execLdf d c l r s
  | .stb d c l r => Sys2Proof.Machine.execStb d c l r s
  | .sth d c l r => Sys2Proof.Machine.execSth d c l r s
  | .stw d c l r => Sys2Proof.Machine.execStw d c l r s
  | .std d c l r => Sys2Proof.Machine.execStd d c l r s
  | .ste d c l r => Sys2Proof.Machine.execSte d c l r s
  | .ldfe d c l r => Sys2Proof.Machine.execLdfe d c l r s
  | .stf d c l r => Sys2Proof.Machine.execStf d c l r s
  | .sete c l r => Sys2Proof.Machine.execSete c l r s
  | .atadd d c l r x => Sys2Proof.Machine.execAtadd d c l r x s
  | .ataddw d c l r x => Sys2Proof.Machine.execAtaddw d c l r x s
  | .atfadd d c l r x => Sys2Proof.Machine.execAtfadd d c l r x s
  | .atmin d c l r x => Sys2Proof.Machine.execAtmin d c l r x s
  | .atmax d c l r x => Sys2Proof.Machine.execAtmax d c l r x s
  | .atminu d c l r x => Sys2Proof.Machine.execAtminu d c l r x s
  | .atmaxu d c l r x => Sys2Proof.Machine.execAtmaxu d c l r x s
  | .atand d c l r x => Sys2Proof.Machine.execAtand d c l r x s
  | .ator d c l r x => Sys2Proof.Machine.execAtor d c l r x s
  | .atxor d c l r x => Sys2Proof.Machine.execAtxor d c l r x s
  | .atxchg d c l r x => Sys2Proof.Machine.execAtxchg d c l r x s
  | .atcas d c l r => Sys2Proof.Machine.execAtcas d c l r s
  | .atfmin d c l r x => Sys2Proof.Machine.execAtfmin d c l r x s
  | .atfmax d c l r x => Sys2Proof.Machine.execAtfmax d c l r x s
  | .epost n => Sys2Proof.Machine.execEpost n s
  | .ewait n => Sys2Proof.Machine.execEwait n s
  | .ewaitk n => Sys2Proof.Machine.execEwaitk n s
  | .waitc l x0 c e => Sys2Proof.Machine.execWaitc l x0 c e s
  | .join x0 m => Sys2Proof.Machine.execJoin x0 m s
  | .phreg a r => Sys2Proof.Machine.execPhreg a r s
  | .phsig a => Sys2Proof.Machine.execPhsig a s
  | .phwait d a => Sys2Proof.Machine.execPhwait d a s
  | .phnext d a => Sys2Proof.Machine.execPhnext d a s
  | .phdrop a => Sys2Proof.Machine.execPhdrop a s
  | .phrole a r => Sys2Proof.Machine.execPhrole a r s
  | .phexp d a => Sys2Proof.Machine.execPhexp d a s
  | .qput d a => Sys2Proof.Machine.execQput d a s
  | .qres d a => Sys2Proof.Machine.execQres d a s
  | .qpub d a => Sys2Proof.Machine.execQpub d a s
  | .qtake d a => Sys2Proof.Machine.execQtake d a s
  | .qtry d a => Sys2Proof.Machine.execQtry d a s
  | .rnext d => Sys2Proof.Machine.execRnext d s
  | .lpatch d a f => Sys2Proof.Machine.execLpatch d a f s
  | .larm a => Sys2Proof.Machine.execLarm a s
  | .lquery d a => Sys2Proof.Machine.execLquery d a s
  | .lampst d => Sys2Proof.Machine.execLampst d s
  | .wrd d w => Sys2Proof.Machine.execWrd d w s
  | .wwr a w => Sys2Proof.Machine.execWwr a w s
  | .xsw t => Sys2Proof.Machine.execXsw t s
  | .carve a n => Sys2Proof.Machine.execCarve a n s
  | .rlabel o => Sys2Proof.Machine.execRlabel o s
  | .pcoord d k => Sys2Proof.Machine.execPcoord d k s
  | .pself d => Sys2Proof.Machine.execPself d s
  | .srd d n => Sys2Proof.Machine.execSrd d n s
  | .swr a n => Sys2Proof.Machine.execSwr a n s
  | .trap n => Sys2Proof.Machine.execTrap n s
  | .pace n => Sys2Proof.Machine.execPace n s
  | .bkpt n => Sys2Proof.Machine.execBkpt n s
  | .chk a n => Sys2Proof.Machine.execChk a n s
  | .bank m b => Sys2Proof.Machine.execBank m b s
  | .tadd d a b => Sys2Proof.Machine.execTadd d a b s
  | .tsub d a b => Sys2Proof.Machine.execTsub d a b s
  | .tmul d a b => Sys2Proof.Machine.execTmul d a b s
  | .tfma d a b => Sys2Proof.Machine.execTfma d a b s
  | .tmax d a b => Sys2Proof.Machine.execTmax d a b s
  | .tmin d a b => Sys2Proof.Machine.execTmin d a b s
  | .tclt d a b => Sys2Proof.Machine.execTclt d a b s
  | .tceq d a b => Sys2Proof.Machine.execTceq d a b s
  | .tsel d a b => Sys2Proof.Machine.execTsel d a b s
  | .tsrnd d a b => Sys2Proof.Machine.execTsrnd d a b s
  | .tmov d a => Sys2Proof.Machine.execTmov d a s
  | .tneg d a => Sys2Proof.Machine.execTneg d a s
  | .tabs d a => Sys2Proof.Machine.execTabs d a s
  | .texp2 d a => Sys2Proof.Machine.execTexp2 d a s
  | .tlog2 d a => Sys2Proof.Machine.execTlog2 d a s
  | .trcp d a => Sys2Proof.Machine.execTrcp d a s
  | .trsq d a => Sys2Proof.Machine.execTrsq d a s
  | .tsqrt d a => Sys2Proof.Machine.execTsqrt d a s
  | .tsig d a => Sys2Proof.Machine.execTsig d a s
  | .ttanh d a => Sys2Proof.Machine.execTtanh d a s
  | .tsilu d a => Sys2Proof.Machine.execTsilu d a s
  | .tgelu d a => Sys2Proof.Machine.execTgelu d a s
  | .tscal d a x0 => Sys2Proof.Machine.execTscal d a x0 s
  | .tadds d a x0 => Sys2Proof.Machine.execTadds d a x0 s
  | .trsum d a => Sys2Proof.Machine.execTrsum d a s
  | .trmax d a => Sys2Proof.Machine.execTrmax d a s
  | .tcsum d a => Sys2Proof.Machine.execTcsum d a s
  | .tcmax d a => Sys2Proof.Machine.execTcmax d a s
  | .trowx d a x0 => Sys2Proof.Machine.execTrowx d a x0 s
  | .trowi d a x0 => Sys2Proof.Machine.execTrowi d a x0 s
  | .tfill d x0 => Sys2Proof.Machine.execTfill d x0 s
  | .tiota d => Sys2Proof.Machine.execTiota d s
  | .tclamp d a x0 => Sys2Proof.Machine.execTclamp d a x0 s
  | .tmma m a b => Sys2Proof.Machine.execTmma m a b s
  | .tmmaz m a b => Sys2Proof.Machine.execTmmaz m a b s
  | .tdrain m d x c r f => Sys2Proof.Machine.execTdrain m d x c r f s
  | .tdrainm m l c k f => Sys2Proof.Machine.execTdrainm m l c k f s
  | .taclr m => Sys2Proof.Machine.execTaclr m s
  | .tcvt d a r x0 t => Sys2Proof.Machine.execTcvt d a r x0 t s
  | .tqnt d a t => Sys2Proof.Machine.execTqnt d a t s
  | .tdqnt d a r t => Sys2Proof.Machine.execTdqnt d a r t s
  | .ttrl d a => Sys2Proof.Machine.execTtrl d a s
  | .tdesc d a b x1 => Sys2Proof.Machine.execTdesc d a b x1 s
  | .tempty d => Sys2Proof.Machine.execTempty d s
  | .tfull d => Sys2Proof.Machine.execTfull d s
  | .tdrd d a => Sys2Proof.Machine.execTdrd d a s
  | .trand d => Sys2Proof.Machine.execTrand d s
  | .tseed a => Sys2Proof.Machine.execTseed a s
  | .tstats d a => Sys2Proof.Machine.execTstats d a s
  | .tget d a b => Sys2Proof.Machine.execTget d a b s
  | .tset d a b => Sys2Proof.Machine.execTset d a b s
  | .afwd p x k y j x1 => Sys2Proof.Machine.execAfwd p x k y j x1 s
  | .abwd p x k y j x1 => Sys2Proof.Machine.execAbwd p x k y j x1 s
  | .aupd p x k y j x1 => Sys2Proof.Machine.execAupd p x k y j x1 s
  | .axfr p x1 => Sys2Proof.Machine.execAxfr p x1 s
  | .acal p y j x1 => Sys2Proof.Machine.execAcal p y j x1 s
  | .aasy p y j x1 => Sys2Proof.Machine.execAasy p y j x1 s
  | .aprog p x k x1 => Sys2Proof.Machine.execAprog p x k x1 s
  | .argrw p x1 => Sys2Proof.Machine.execArgrw p x1 s
  | .amask p l x1 => Sys2Proof.Machine.execAmask p l x1 s
  | .aseed p x1 => Sys2Proof.Machine.execAseed p x1 s
  | .astat p y j x1 => Sys2Proof.Machine.execAstat p y j x1 s
  | .azero p x1 => Sys2Proof.Machine.execAzero p x1 s
  | .asetWrite p x0 => Sys2Proof.Machine.execAsetWrite p x0 s
  | .asetRead p x0 => Sys2Proof.Machine.execAsetRead p x0 s
  | .hld t l c k => Sys2Proof.Machine.execHld t l c k s
  | .hst t v l c k => Sys2Proof.Machine.execHst t v l c k s
  | .hsta t v l c k => Sys2Proof.Machine.execHsta t v l c k s
  | .hgth t l c k => Sys2Proof.Machine.execHgth t l c k s
  | .hsct t v l c k => Sys2Proof.Machine.execHsct t v l c k s
  | .hpf l c k => Sys2Proof.Machine.execHpf l c k s
  | .hcpy d x0 c => Sys2Proof.Machine.execHcpy d x0 c s
  | .hsend d x0 c => Sys2Proof.Machine.execHsend d x0 c s
  | .hfill d c => Sys2Proof.Machine.execHfill d c s
  | .loadReturn core st => Sys2Proof.Machine.execLoadReturn core st s
  | .storePerform core st => Sys2Proof.Machine.execStorePerform core st s
  | .atomicPerform core st => Sys2Proof.Machine.execAtomicPerform core st s
  | .fifoServe core st => Sys2Proof.Machine.execFifoServe core st s
  | .vectorClaim core => Sys2Proof.Machine.execVectorClaim core s
  | .vectorComplete core => Sys2Proof.Machine.execVectorComplete core s
  | .matrixStart core => Sys2Proof.Machine.execMatrixStart core s
  | .matrixBlock core => Sys2Proof.Machine.execMatrixBlock core s
  | .matrixComplete core => Sys2Proof.Machine.execMatrixComplete core s
  | .arrayIssue core => Sys2Proof.Machine.execArrayIssue core s
  | .arrayUnit core panel => Sys2Proof.Machine.execArrayUnit core panel s
  | .arrayComplete core panel => Sys2Proof.Machine.execArrayComplete core panel s
  | .xswPair shaft => Sys2Proof.Machine.execXswPair shaft s
  | .xswComplete shaft => Sys2Proof.Machine.execXswComplete shaft s
  | .joinMeet core mask scope => Sys2Proof.Machine.execJoinMeet core mask scope s
  | .phaseComplete cluster phaser => Sys2Proof.Machine.execPhaseComplete cluster phaser s
  | .bankSwitchDone cluster bank => Sys2Proof.Machine.execBankSwitchDone cluster bank s
  | .hoistCopyStart core => Sys2Proof.Machine.execHoistCopyStart core s
  | .hoistChunk core => Sys2Proof.Machine.execHoistChunk core s
  | .hoistCopyComplete core => Sys2Proof.Machine.execHoistCopyComplete core s
  | .trapEntry core => Sys2Proof.Machine.execTrapEntry core s
  | .haltComplete core => Sys2Proof.Machine.execHaltComplete core s
  | .pointStart rec serial => Sys2Proof.Machine.execPointStart rec serial s
  | .pointEnd rec serial => Sys2Proof.Machine.execPointEnd rec serial s
  | .recordDone rec => Sys2Proof.Machine.execRecordDone rec s
  | .preempt part => Sys2Proof.Machine.execPreempt part s
  | .saveStopped part => Sys2Proof.Machine.execSaveStopped part s
  | .saveComplete part => Sys2Proof.Machine.execSaveComplete part s
  | .restoreComplete part => Sys2Proof.Machine.execRestoreComplete part s
  | .weightScaleApply core panel => Sys2Proof.Machine.execWeightScaleApply core panel s
  | .panelRemap core panel => Sys2Proof.Machine.execPanelRemap core panel s
  | .translationWalk cluster part va => Sys2Proof.Machine.execTranslationWalk cluster part va s
  | .blockFetch core st => Sys2Proof.Machine.execBlockFetch core st s
  | .lampmaxExpiry core => Sys2Proof.Machine.execLampmaxExpiry core s
  | .sprintLimit shaft => Sys2Proof.Machine.execSprintLimit shaft s
  | .cooldownEnd shaft => Sys2Proof.Machine.execCooldownEnd shaft s
  | .pavgUpdate watts => Sys2Proof.Machine.execPavgUpdate watts s
  | .tempSample shaft degrees => Sys2Proof.Machine.execTempSample shaft degrees s
  | .railGap cluster => Sys2Proof.Machine.execRailGap cluster s
  | .watchdogExpiry core => Sys2Proof.Machine.execWatchdogExpiry core s
  | .eccFreeze core => Sys2Proof.Machine.execEccFreeze core s
  | .eccFreezeEnd core => Sys2Proof.Machine.execEccFreezeEnd core s
  | .uncorrectableError part => Sys2Proof.Machine.execUncorrectableError part s
  | .contextKill core => Sys2Proof.Machine.execContextKill core s
  | .form part => Sys2Proof.Machine.execForm part s
  | .dissolve part => Sys2Proof.Machine.execDissolve part s
  | .saveDeadline part => Sys2Proof.Machine.execSaveDeadline part s
  | .restore part => Sys2Proof.Machine.execRestore part s
  | .release part => Sys2Proof.Machine.execRelease part s
  | .build part rec => Sys2Proof.Machine.execBuild part rec s
  | .patch part rec word => Sys2Proof.Machine.execPatch part rec word s
  | .arm part rec => Sys2Proof.Machine.execArm part rec s
  | .query part rec => Sys2Proof.Machine.execQuery part rec s
  | .free part rec => Sys2Proof.Machine.execFree part rec s
  | .clusterBankCommand part cluster bank mode => Sys2Proof.Machine.execClusterBankCommand part cluster bank mode s
  | .abort rec => Sys2Proof.Machine.execAbort rec s
  | .qresume cluster queue => Sys2Proof.Machine.execQresume cluster queue s
  | .qcfgWrite cluster queue value => Sys2Proof.Machine.execQcfgWrite cluster queue value s
  | .qbaseWrite cluster queue value => Sys2Proof.Machine.execQbaseWrite cluster queue value s
  | .phcfgWrite cluster phaser value => Sys2Proof.Machine.execPhcfgWrite cluster phaser value s
  | .ordcfgWrite phaser value => Sys2Proof.Machine.execOrdcfgWrite phaser value s
  | .coreAccessWrite part offset value => Sys2Proof.Machine.execCoreAccessWrite part offset value s
  | .panelControlWrite part offset value => Sys2Proof.Machine.execPanelControlWrite part offset value s
  | .retire core panel => Sys2Proof.Machine.execRetire core panel s
  | .poolWrite offset value => Sys2Proof.Machine.execPoolWrite offset value s
  | .clpwrWrite cluster value => Sys2Proof.Machine.execClpwrWrite cluster value s
  | .lrctlWrite value => Sys2Proof.Machine.execLrctlWrite value s
  | .devnumWrite value => Sys2Proof.Machine.execDevnumWrite value s
  | .fqcfgWrite value => Sys2Proof.Machine.execFqcfgWrite value s
  | .fqheadWrite value => Sys2Proof.Machine.execFqheadWrite value s
  | .invalidate value => Sys2Proof.Machine.execInvalidate value s
  | .ibportWrite port value => Sys2Proof.Machine.execIbportWrite port value s
  | .registerWrite offset value => Sys2Proof.Machine.execRegisterWrite offset value s
  | .hostWindowAccess window offset size write value => Sys2Proof.Machine.execHostWindowAccess window offset size write value s
  | .hostAtomicop window offset size op value expected => Sys2Proof.Machine.execHostAtomicop window offset size op value expected s
  | .getCertificate slot => Sys2Proof.Machine.execGetCertificate slot s
  | .challenge nonce => Sys2Proof.Machine.execChallenge nonce s
  | .getMeasurements index => Sys2Proof.Machine.execGetMeasurements index s
  | .keyExchange share => Sys2Proof.Machine.execKeyExchange share s
  | .finish session => Sys2Proof.Machine.execFinish session s
  | .vendorDefinedRequest session part rec cmd => Sys2Proof.Machine.execVendorDefinedRequest session part rec cmd s
  | .spdmOtherRequest code => Sys2Proof.Machine.execSpdmOtherRequest code s
  | .linkRetry port => Sys2Proof.Machine.execLinkRetry port s
  | .portStateChange port state peer => Sys2Proof.Machine.execPortStateChange port state peer s
  | .remoteChunkArrival source chunk => Sys2Proof.Machine.execRemoteChunkArrival source chunk s
  | .ringHopFailure hop => Sys2Proof.Machine.execRingHopFailure hop s
  | .deviceReset image => Sys2Proof.Machine.execDeviceReset image s
  | .railTrimDone cluster => Sys2Proof.Machine.execRailTrimDone cluster s
  | .panelCalDone core panel ok => Sys2Proof.Machine.execPanelCalDone core panel ok s
  | .sealedRead offset => Sys2Proof.Machine.execSealedRead offset s
  | .railGapRestored cluster => Sys2Proof.Machine.execRailGapRestored cluster s
  | .nop => Sys2Proof.Machine.execNop s
  | .pend16 => Sys2Proof.Machine.execPend16 s
  | .ret => Sys2Proof.Machine.execRet s
  | .pend => Sys2Proof.Machine.execPend s
  | .lampq => Sys2Proof.Machine.execLampq s
  | .lamprel => Sys2Proof.Machine.execLamprel s
  | .rett => Sys2Proof.Machine.execRett s
  | .halt => Sys2Proof.Machine.execHalt s
  | .headframeRound => Sys2Proof.Machine.execHeadframeRound s
  | .invalidationDone => Sys2Proof.Machine.execInvalidationDone s
  | .getVersion => Sys2Proof.Machine.execGetVersion s
  | .getCapabilities => Sys2Proof.Machine.execGetCapabilities s
  | .negotiateAlgorithms => Sys2Proof.Machine.execNegotiateAlgorithms s
  | .getDigests => Sys2Proof.Machine.execGetDigests s
  | .firmwareStart => Sys2Proof.Machine.execFirmwareStart s
  | .powerOff => Sys2Proof.Machine.execPowerOff s

end Sys2Proof.Machine
end

