-- ==== Sys2Proof/Machine/Place.lean ====
section
/-! DEFINITION. Placing one parcel where the next step fetches it (log 16). -/

namespace Sys2Proof.Machine

/-- The stream that owns the class of a parcel (R13, R83). -/
def ownerOf (nbits w : Nat) : StreamId :=
  if nbits = 16 then (if w / 1024 % 32 = 14 then .t else .c)
  else
    match w / 2 ^ 28 % 8 with
    | 3 | 4 => .t
    | 5 => .a
    | 6 | 7 => .h
    | 2 => if w / 2 ^ 27 % 2 = 0 ∧ w / 2 ^ 11 % 64 = 27 then .t else .c
    | _ => .c

/-- Physical address of the root table the placed partition uses. -/
def placedRoot : Nat := 0x2000000000

/-- Address of the block that holds a placed parcel. -/
def placedBlock : Nat := 0x1000

/-- The parcel stands in a block of its own length, which the stream has entered and executes once. Partition 0 is
formed of cluster 0, its root table maps the first 128 GiB onto themselves for reading and writing, and core 0 runs
a point whose other streams have ended. -/
def State.placeParcel (s : State) (nbits w : Nat) : State :=
  let st := ownerOf nbits w
  let len := if nbits = 16 then 1 else 2
  let b : Pcb := { s.pcb 0 with clusters := 1, formed := true, troot := placedRoot / 4096, poolCnt := 1, tag := 1, key := 1 }
  let x : Stream := { Stream.reset with ended := true }
  let p : Pos := ⟨placedBlock, 0, len, 1, .inside⟩
  let pt : Point := ⟨0, 1, 0, 0, 0, [0], false, [], 1, 0xFFFFFFFF, true, 0⟩
  let c : Core := { s.core 0 with halted := false, halting := false, point := some pt, priv := false, raised := none, stop := false, suspended := false, frozen := false, strC := x, strT := x, strA := x, strH := x }
  let c1 := c.setStream st { Stream.reset with pos := p }
  let s1 := ((s.setPcb 0 b).setCore 0 c1).hbmPut 1 placedRoot (leBytes 8 0xD)
  let s2 := s1.hbmPut 1 placedBlock (parcelBytes 32 (0xFF000000 + len * 4096))
  let s3 := s2.hbmPut 1 (placedBlock + 4) (parcelBytes nbits w)
  { s3 with turn := some (0, st), agenda := [], resetDue := [] }

end Sys2Proof.Machine
end

