-- ==== Sys2Proof/Machine/Schedule.lean ====
section
/-! DEFINITION. Who moves next: the events that are due, and the turn (log 1). -/

namespace Sys2Proof.Machine

/-- The streams that may move, in ascending core number and in the order of R74. -/
def State.runnables (s : State) : List (Nat × StreamId) :=
  s.cores.flatMap fun (k, _) => (streamIds.filter (s.runnable k)).map fun st => (k, st)

/-- The stream that moves next: the first after the last one, going round. -/
def State.nextTurn (s : State) : Option (Nat × StreamId) :=
  let rs := s.runnables
  let n := match s.turn with
    | some (k, st) => 4 * k + st.num + 1
    | none => 0
  match rs.find? fun p => decide (n ≤ 4 * p.1 + p.2.num) with
  | some p => some p
  | none =>
    match rs with
    | p :: _ => some p
    | [] => s.turn

/-! ### What is due -/

/-- What performs an outstanding access (R110, R152). -/
def accessEvent (k : Nat) (st : StreamId) (a : Access) : Instr :=
  match a.kind with
  | .load _ _ | .returning _ => .loadReturn k st
  | .store => .storePerform k st
  | .atomic _ _ _ => .atomicPerform k st
  | .fifoLoad _ _ | .fifoStore _ => .fifoServe k st

/-- Events of a core that end what is in progress. -/
def Core.endings (c : Core) (k : Nat) : List Instr :=
  (if c.vec.isSome && !c.vecWaits then [.vectorComplete k] else []) ++
    (match c.mat with | m :: _ => if m.ready then [.matrixComplete k] else [] | [] => []) ++
    ((c.arr.filter fun o => o.ready && !o.finished).map fun o => .arrayComplete k o.panel) ++
    (match c.copies with | p :: _ => if p.status.isSome then [.hoistCopyComplete k] else [] | [] => []) ++
    (if c.xsw.isSome && k % 2 == 0 then [.xswComplete (shaftOf k)] else []) ++
    streamIds.flatMap fun st => match (c.stream st).accesses with | a :: _ => [accessEvent k st a] | [] => []

/-- Stop units of a core's operations in progress (R231, R274, R285). -/
def Core.unitEvents (c : Core) (k : Nat) : List Instr :=
  (match c.mat with | m :: _ => if m.started && !m.ready then [.matrixBlock k] else [] | [] => []) ++
    ((c.arr.filter fun o => !o.ready && !o.finished).map fun o => .arrayUnit k o.panel) ++
    (match c.copies with | p :: _ => if p.started && p.status.isNone && !p.stopped then [.hoistChunk k] else [] | [] => [])

/-- A stream waits for its claim since an arrival number. -/
def Stream.claimSince (x : Stream) : Option Nat :=
  match x.wait with
  | some (.claim _, n) => some n
  | some (.panel _ _ _, n) => some n
  | _ => none

/-- A core's attempts to claim tiles, each with the arrival number at which it began to wait (R63). -/
def Core.claims (c : Core) (k : Nat) : List (Nat × Instr) :=
  let h := match c.copies with
    | p :: _ => if p.started || p.status.isSome then [] else [(p.since, Instr.hoistCopyStart k)]
    | [] => []
  let m := match c.mat with
    | o :: _ => if o.started then [] else [(o.since, Instr.matrixStart k)]
    | [] => []
  let a := match c.strA.claimSince with
    | some n => [(n, Instr.arrayIssue k)]
    | none => []
  let t := match c.strT.claimSince with
    | some n => [(n, Instr.vectorClaim k)]
    | none => []
  h ++ a ++ m ++ t

/-- The attempt of two paired XSWs to claim, at the lower twin: as R211 has them wait for their claims once both are there, it has waited since the later
of the two came (log 80). -/
def State.xswClaim (s : State) (k : Nat) : List (Nat × Instr) :=
  match (s.stream k .t).wait, (s.stream (twinOf k) .t).wait with
  | some (.xsw _, m), some (.xsw _, n) =>
    if k % 2 = 0 ∧ (s.waitingXsw k).isSome ∧ (s.waitingXsw (twinOf k)).isSome then [(max m n, .xswPair (shaftOf k))] else []
  | _, _ => []

/-- Attempts to claim tiles in the order in which they began to wait, those of XSW among them (R63, R211). -/
def State.claimEvents (s : State) (l : List (Nat × Core)) : List Instr :=
  (sortByOrder (l.flatMap fun x => x.2.claims x.1 ++ s.xswClaim x.1)).map fun x => x.2

/-- Meetings that streams of a core wait for (R156). -/
def Core.joinEvents (c : Core) (k : Nat) : List Instr :=
  streamIds.filterMap fun st =>
    match (c.stream st).wait with
    | some (.join mask scope, _) => some (.joinMeet k mask scope)
    | _ => none

/-- Traps and halts of a core that may take place, and the end of a core that a double fault stopped (R216, R364, R369). -/
def Core.stopEvents (c : Core) (k : Nat) : List Instr :=
  (if c.raised.isSome && c.acknowledged && !c.priv && !c.stop && !c.failed then [.trapEntry k] else []) ++
    if (c.failed && c.acknowledged) || (c.halting && c.operationsDone) then [.haltComplete k] else []

/-- Panel controls of a core that may be applied (R339, R421). -/
def Core.panelEvents (c : Core) (k : Nat) : List Instr :=
  c.panels.flatMap fun x =>
    (if x.2.pendingSw.isSome && !c.panelActive x.1 then [.weightScaleApply k x.1] else []) ++
      if x.2.leaving && !c.panelActive x.1 then [.panelRemap k x.1] else []

/-- What is due at the cores: endings, stop units, claims and meetings, then stops and panel controls. -/
def State.coreEvents (s : State) : List Instr :=
  let l := s.cores.filter fun x => s.clocked x.1
  (l.flatMap fun x => x.2.endings x.1) ++ (l.flatMap fun x => x.2.unitEvents x.1) ++ s.claimEvents l ++
    (l.flatMap fun x => x.2.joinEvents x.1) ++ (l.flatMap fun x => x.2.stopEvents x.1) ++ l.flatMap fun x => x.2.panelEvents x.1

/-- Bank switches of a cluster that have drained, and banks that a window command may have now (R148, R336). -/
def State.bankEvents (s : State) (n : Nat) (c : Cluster) : List Instr :=
  ((c.bankBusy.filter fun b => c.drained b.1).map fun b => .bankSwitchDone n b.1) ++
    ((List.range 64).filter fun b => s.bankServable n b).map fun b => .bankSwitchDone n b

/-- A phase of a phaser may complete, or a CARVE of a completed one may take effect (R146, R197). -/
def State.phaseDue (s : State) (cl n : Nat) : Bool := s.phaseReady cl n || !(s.lateCores cl n).isEmpty

/-- Phases that may complete and bank switches that have drained, at clusters whose clock runs (R148, R197, R404). -/
def State.clusterEvents (s : State) : List Instr :=
  let l := s.clusters.filter fun c => s.clocked (16 * c.1)
  (l.flatMap fun c => (c.2.phasers.filter fun p => s.phaseDue c.1 (p.1 + 1)).map fun p => .phaseComplete c.1 (p.1 + 1)) ++
    ((s.dphasers.filter fun p => s.phaseDue 0 (p.1 + 65)).map fun p => .phaseComplete 0 (p.1 + 65)) ++
    l.flatMap fun c => s.bankEvents c.1 c.2

/-- Points that may start, points that have ended, the headframe's round, and records that are done (R113, R114, R345,
R347); a core whose clock is stopped starts and ends nothing (R404). -/
def State.launchEvents (s : State) : List Instr :=
  let ends := s.cores.filterMap fun x =>
    match x.2.point with
    | some p => if p.base = x.1 ∧ x.2.finished ∧ s.clocked x.1 then some (Instr.pointEnd p.recNo p.serial) else none
    | none => none
  let starts := s.records.flatMap fun r => (r.2.points.filter fun f => f.crew.any s.clocked && !f.started).map fun f => Instr.pointStart r.1 f.serial
  let round := if (s.records.any fun r => r.2.state.live) || !s.completions.isEmpty || !s.reports.isEmpty || !s.measured.isEmpty then [Instr.headframeRound] else []
  let done := (s.records.filter fun r => r.2.complete).map fun r => Instr.recordDone r.1
  starts ++ ends ++ done ++ round

/-- Saves, restores and invalidations that may go on (R372, R382, R395). -/
def State.systemEvents (s : State) : List Instr :=
  (s.pcbs.flatMap fun b =>
    if b.2.saving then (if b.2.saveStopped then [.saveComplete b.1] else if s.allStopped b.1 then [.saveStopped b.1] else [])
    else if b.2.restoring then [.restoreComplete b.1]
    else []) ++ if s.invBusy && s.invalidated then [.invalidationDone] else []

/-- Events that are due once a stream has moved (log 1). -/
def State.due (s : State) : List Instr := s.coreEvents ++ s.clusterEvents ++ s.launchEvents ++ s.systemEvents

/-- After a stream has moved: what is due comes next, and the turn passes on. -/
def State.settle (s : State) : State := { s with agenda := s.agenda ++ s.due, turn := s.nextTurn }

/-- The event is a row of the opcode table without an encoding: the agenda brings no instruction. -/
def isEvent (i : Instr) : Bool := (encode i).isNone

end Sys2Proof.Machine
end

