-- ==== Sys2Proof/Machine/Step.lean ====
section
/-! DEFINITION. One step of the device. -/

namespace Sys2Proof.Machine

/-- After exec, the rest of a step: what is due comes next, and the turn passes on (log 1). -/
def settled (o : Host.Outcome State Fault Refusal) : Host.Outcome State Fault Refusal :=
  match o with
  | .next s => .next s.settle
  | .fault f => .fault f
  | .refused r => .refused r

/-- The stream that moves: it fetches its block, or fetches and executes one parcel; a parcel that is no
instruction raises its cause (R103). A stream that may not move leaves the state as it is. -/
def stepStream (s : State) (k : Nat) (st : StreamId) : Host.Outcome State Fault Refusal :=
  if s.runnable k st then
    if (s.pos k st).entry = .inside then
      match s.fetchParcel k (s.pos k st) with
      | (s1, .ok i) => exec i s1
      | (s1, .error f) => .next (s1.raise k st f.cause f.info)
    else exec (.blockFetch k st) s
  else .next s

/-- One step: the resets of partitions that are due (log 75), else the oldest event of the agenda, else the stream whose
turn it is (log 1). -/
def step (s : State) : Host.Outcome State Fault Refusal :=
  match s.resetDue, s.agenda with
  | _ :: _, _ => .next s.takeResets
  | [], e :: rest => if isEvent e then exec e { s with agenda := rest } else .next { s with agenda := rest }
  | [], [] =>
    match s.turn with
    | some (k, st) => settled (stepStream s k st)
    | none => .next s.settle

/-- The state with an instruction placed where step fetches next: a formed partition of cluster 0, its tables, a
running point on core 0, and the block that holds the parcel, already entered (log 16). -/
def State.withFetchWord (s : State) (nbits w : Nat) : State := s.placeParcel nbits w

end Sys2Proof.Machine
end

