-- ==== Sys2Proof/Certificates/Slice0/Obligations.lean ====
section
/-! DEFINITION. The statements of this model, for the provers. -/

open Sys2Proof Sys2Proof.Machine

/-! ### Words the statements share -/

namespace Sys2Proof.Claims

/-- Stream st of core k acts, and no outstanding access or copy will write one of the registers (R166). -/
def Acts (s : State) (k : Nat) (st : StreamId) (rs : List Reg) : Prop := s.turn = some (k, st) ∧ s.anyPending k st rs = false

/-- The stream writes one register and retires an instruction of `len` halfwords: the whole of the effect. -/
def wrote (s : State) (k : Nat) (st : StreamId) (d : Reg) (len : Nat) (v : Word) : Out :=
  .next ((s.setReg k st d v).retire k st len)

/-- Everything but one core, and the model's own agenda and arrival counter, is as it was. -/
def OnlyCore (k : Nat) (s t : State) : Prop :=
  t = { s with cores := t.cores, order := t.order, agenda := t.agenda, draws := t.draws } ∧ ∀ j, j ≠ k → t.core j = s.core j

/-- Of core k, only the registers, position, count, call stack and wait of one stream have changed, with the model's own
count of steps: every other stream, the tiles, the accumulators, the events, the parameter registers, the trap and mode
registers, the panels and the scratch are as they were. -/
def OnlyStream (k : Nat) (st : StreamId) (s t : State) : Prop :=
  OnlyCore k s t ∧ ∃ regs pos seq stack wait hregs hpos hstack ticks,
    t.core k = { (s.core k).setStream st { s.stream k st with regs := regs, pos := pos, seq := seq, stack := stack, wait := wait } with
      hregs := hregs, hpos := hpos, hstack := hstack, ticks := ticks }

/-- Every byte of every memory reads as before at its home: scratch, cluster scratch, HBM and the host's. -/
def SameMemory (s t : State) : Prop := ∀ key l, t.homeGet key l = s.homeGet key l

/-- Every byte whose home is not among some locations reads as before at its home: under the key they are written with, and
under every other key where its line of HBM, the unit that R399 encrypts under one key, holds none of them. -/
def SameOutside (key0 : Nat) (ls : List Loc) (s t : State) : Prop :=
  ∀ key l, (∀ x ∈ ls, x.home ≠ l.home) → (key = key0 ∨ l.line = none ∨ ∀ x ∈ ls, x.line ≠ l.line) → t.homeGet key l = s.homeGet key l

/-- The locations are of different bytes. -/
def Apart (ls : List Loc) : Prop := (ls.map Loc.home).Nodup

/-- Keys of a table strictly rise. -/
def Rising {α : Type} (t : Tbl α) : Prop := t.Pairwise fun a b => a.1 < b.1

/-- No stream of core k waits in a PHNEXT, whose signal would be taken back if it stopped there (R190). -/
def NoNextWaits (s : State) (k : Nat) : Prop := ∀ x n ph r m, (s.stream k x).wait ≠ some (.phase n ph (some r), m)

end Sys2Proof.Claims

open Sys2Proof.Claims

/-! ### The scalar unit -/

/-- R167: what the SR functions but the divisions write, in exact arithmetic on the operands. -/
def Sys2Proof.Claims.ScalarArithmetic : Prop :=
  ∀ (s : State) (k : Nat) (st : StreamId) (d a b : Reg), Acts s k st [d, a, b] →
    let x := s.reg k st a
    let y := s.reg k st b
    let done := wrote s k st d 2
    exec (.add d a b) s = done (word (x.toNat + y.toNat)) ∧
    exec (.sub d a b) s = done (wordI (x.toInt - y.toInt)) ∧
    exec (.mul d a b) s = done (word (x.toNat * y.toNat)) ∧
    exec (.mulhs d a b) s = done (wordI (x.toInt * y.toInt / 2 ^ 64)) ∧
    exec (.mulhu d a b) s = done (word (x.toNat * y.toNat / 2 ^ 64)) ∧
    exec (.and d a b) s = done (x &&& y) ∧
    exec (.or d a b) s = done (x ||| y) ∧
    exec (.xor d a b) s = done (x ^^^ y) ∧
    exec (.andn d a b) s = done (x &&& ~~~y) ∧
    exec (.shl d a b) s = done (word (x.toNat * 2 ^ (y.toNat % 64))) ∧
    exec (.shr d a b) s = done (word (x.toNat / 2 ^ (y.toNat % 64))) ∧
    exec (.sar d a b) s = done (wordI (x.toInt / 2 ^ (y.toNat % 64))) ∧
    exec (.min d a b) s = done (if x.toInt ≤ y.toInt then x else y) ∧
    exec (.max d a b) s = done (if x.toInt ≤ y.toInt then y else x) ∧
    exec (.minu d a b) s = done (if x.toNat ≤ y.toNat then x else y) ∧
    exec (.maxu d a b) s = done (if x.toNat ≤ y.toNat then y else x) ∧
    exec (.slt d a b) s = done (if x.toInt < y.toInt then 1 else 0) ∧
    exec (.sltu d a b) s = done (if x.toNat < y.toNat then 1 else 0) ∧
    exec (.seq d a b) s = done (if x = y then 1 else 0) ∧
    exec (.sne d a b) s = done (if x = y then 0 else 1) ∧
    exec (.sel d a b) s = done (if s.reg k st d = 0 then y else x)

/-- R167: CADD adds the four 16-bit lanes with no carry between them. -/
def Sys2Proof.Claims.ScalarLanes : Prop :=
  ∀ (s : State) (k : Nat) (st : StreamId) (d a b : Reg), Acts s k st [d, a, b] →
    ∃ v, exec (.cadd d a b) s = wrote s k st d 2 v ∧ ∀ i, i < 4 →
      v.toNat / 2 ^ (16 * i) % 2 ^ 16 =
        ((s.reg k st a).toNat / 2 ^ (16 * i) % 2 ^ 16 + (s.reg k st b).toNat / 2 ^ (16 * i) % 2 ^ 16) % 2 ^ 16

/-- R167: CLZ, CTZ and POPC count leading zeros, trailing zeros and ones. -/
def Sys2Proof.Claims.ScalarBitCounts : Prop :=
  ∀ (s : State) (k : Nat) (st : StreamId) (d a : Reg), Acts s k st [d, a] →
    let x := s.reg k st a
    (∃ n, n ≤ 64 ∧ exec (.clz d a) s = wrote s k st d 2 (word n) ∧ (∀ i, 64 - n ≤ i → x.getLsbD i = false) ∧
      (n < 64 → x.getLsbD (63 - n) = true)) ∧
    (∃ n, n ≤ 64 ∧ exec (.ctz d a) s = wrote s k st d 2 (word n) ∧ (∀ i, i < n → x.getLsbD i = false) ∧
      (n < 64 → x.getLsbD n = true)) ∧
    exec (.popc d a) s = wrote s k st d 2 (word ((List.range 64).filter fun i => x.getLsbD i).length)

/-- R168: the divisions, on every pair of operands. -/
def Obligations.ScalarDivision : Prop :=
  ∀ (s : State) (k : Nat) (st : StreamId) (d a b : Reg), Acts s k st [d, a, b] →
    let x := s.reg k st a
    let y := s.reg k st b
    ∃ q r qu ru : Word,
      exec (.div d a b) s = wrote s k st d 2 q ∧ exec (.rem d a b) s = wrote s k st d 2 r ∧
      exec (.divu d a b) s = wrote s k st d 2 qu ∧ exec (.remu d a b) s = wrote s k st d 2 ru ∧
      (y = 0 → q.toInt = -1 ∧ r = x ∧ qu.toNat = 2 ^ 64 - 1 ∧ ru = x) ∧
      (x.toInt = -2 ^ 63 ∧ y.toInt = -1 → q = x ∧ r = 0) ∧
      (y ≠ 0 ∧ ¬ (x.toInt = -2 ^ 63 ∧ y.toInt = -1) →
        q.toInt = x.toInt.tdiv y.toInt ∧ r.toInt = x.toInt - q.toInt * y.toInt) ∧
      (y ≠ 0 → qu.toNat = x.toNat / y.toNat ∧ ru.toNat = x.toNat - qu.toNat * y.toNat)

/-- R169 and R170: the immediate forms. -/
def Sys2Proof.Claims.ScalarImmediates : Prop :=
  ∀ (s : State) (k : Nat) (st : StreamId) (d a : Reg) (m : BitVec 12) (n : BitVec 6) (h : BitVec 2) (z : BitVec 16),
    Acts s k st [d, a] →
    let x := s.reg k st a
    let done := wrote s k st d 2
    exec (.addi d a m) s = done (wordI (x.toInt + m.toInt)) ∧
    exec (.andi d a m) s = done (x &&& word m.toNat) ∧
    exec (.ori d a m) s = done (x ||| word m.toNat) ∧
    exec (.xori d a m) s = done (x ^^^ word m.toNat) ∧
    exec (.shli d a n) s = done (word (x.toNat * 2 ^ n.toNat)) ∧
    exec (.shri d a n) s = done (word (x.toNat / 2 ^ n.toNat)) ∧
    exec (.sari d a n) s = done (wordI (x.toInt / 2 ^ n.toNat)) ∧
    exec (.slti d a m) s = done (if x.toInt < m.toInt then 1 else 0) ∧
    exec (.sltui d a m) s = done (if x.toNat < m.toNat then 1 else 0) ∧
    exec (.seqi d a m) s = done (if x.toInt = m.toInt then 1 else 0) ∧
    exec (.muli d a m) s = done (wordI (x.toInt * m.toInt)) ∧
    exec (.ldi d h z) s = done (word (z.toNat * 2 ^ (16 * h.toNat))) ∧
    exec (.ldin d h z) s = done (~~~(word (z.toNat * 2 ^ (16 * h.toNat)))) ∧
    ∃ v, exec (.insi d h z) s = done v ∧ ∀ i, i < 4 → v.toNat / 2 ^ (16 * i) % 2 ^ 16 =
      if i = h.toNat then z.toNat else (s.reg k st d).toNat / 2 ^ (16 * i) % 2 ^ 16

/-- R170 and R166: INSI, which reads its destination, waits while that is pending. -/
def Sys2Proof.Claims.HalfwordStall : Prop :=
  ∀ (s : State) (k : Nat) (st : StreamId) (d : Reg) (h : BitVec 2) (z : BitVec 16), s.turn = some (k, st) →
    s.anyPending k st [d] = true → exec (.insi d h z) s = .next (s.waitOn k st .register)

/-- R171: a 16-bit form has the effect of its 32-bit equivalent, and the stream goes on one halfword further. -/
def Sys2Proof.Claims.ScalarShortForms : Prop :=
  ∀ (s : State) (k : Nat) (st : StreamId) (d a : Reg) (m : BitVec 5), Acts s k st [d, a] →
    let x := s.reg k st d
    let y := s.reg k st a
    let done := wrote s k st d 1
    exec .nop s = .next (s.retire k st 1) ∧
    exec (.mov16 d a) s = done y ∧
    exec (.add16 d a) s = done (word (x.toNat + y.toNat)) ∧
    exec (.sub16 d a) s = done (wordI (x.toInt - y.toInt)) ∧
    exec (.and16 d a) s = done (x &&& y) ∧
    exec (.or16 d a) s = done (x ||| y) ∧
    exec (.xor16 d a) s = done (x ^^^ y) ∧
    exec (.addi16 d m) s = done (wordI (x.toInt + m.toInt)) ∧
    exec (.ldi16 d m) s = done (wordI m.toInt) ∧
    exec (.shli16 d m) s = done (word (x.toNat * 2 ^ m.toNat)) ∧
    exec (.shri16 d m) s = done (word (x.toNat / 2 ^ m.toNat)) ∧
    ∃ v, exec (.cadd16 d a) s = done v ∧ exec (.cadd d d a) s = wrote s k st d 2 v

/-- R56: a scalar register keeps what is written, s0 discards it and reads zero, and no other register changes. -/
def Sys2Proof.Claims.ScalarRegisterWrite : Prop :=
  ∀ (s : State) (k : Nat) (st : StreamId) (d r : Reg) (v : Word) (len : Nat),
    ((s.setReg k st d v).retire k st len).reg k st r = if r = 0 then 0 else if r = d then v else s.reg k st r

namespace Sys2Proof.Claims

/-- The scalar instructions, with the register each writes. -/
def scalarDest (i : Instr) : Option Reg :=
  match i with
  | .add d _ _ | .sub d _ _ | .mul d _ _ | .mulhs d _ _ | .mulhu d _ _ | .div d _ _ | .divu d _ _ | .rem d _ _ | .remu d _ _
  | .and d _ _ | .or d _ _ | .xor d _ _ | .andn d _ _ | .shl d _ _ | .shr d _ _ | .sar d _ _ | .min d _ _ | .max d _ _
  | .minu d _ _ | .maxu d _ _ | .slt d _ _ | .sltu d _ _ | .seq d _ _ | .sne d _ _ | .cadd d _ _ | .sel d _ _ | .clz d _
  | .popc d _ | .ctz d _ | .addi d _ _ | .andi d _ _ | .ori d _ _ | .xori d _ _ | .slti d _ _ | .sltui d _ _ | .seqi d _ _
  | .muli d _ _ | .shli d _ _ | .shri d _ _ | .sari d _ _ | .ldi d _ _ | .ldin d _ _ | .insi d _ _ | .mov16 d _ | .add16 d _
  | .sub16 d _ | .and16 d _ | .or16 d _ | .xor16 d _ | .cadd16 d _ | .addi16 d _ | .ldi16 d _ | .shli16 d _ | .shri16 d _ =>
    some d
  | _ => none

/-- The registers that a scalar instruction waits for: its destination and the sources it reads (R166). -/
def scalarRegs (i : Instr) : List Reg :=
  match i with
  | .add d a b | .sub d a b | .mul d a b | .mulhs d a b | .mulhu d a b | .div d a b | .divu d a b | .rem d a b | .remu d a b
  | .and d a b | .or d a b | .xor d a b | .andn d a b | .shl d a b | .shr d a b | .sar d a b | .min d a b | .max d a b
  | .minu d a b | .maxu d a b | .slt d a b | .sltu d a b | .seq d a b | .sne d a b | .cadd d a b | .sel d a b => [d, a, b]
  | .clz d a | .popc d a | .ctz d a | .addi d a _ | .andi d a _ | .ori d a _ | .xori d a _ | .slti d a _ | .sltui d a _
  | .seqi d a _ | .muli d a _ | .shli d a _ | .shri d a _ | .sari d a _ | .mov16 d a | .add16 d a | .sub16 d a | .and16 d a
  | .or16 d a | .xor16 d a | .cadd16 d a => [d, a]
  | .ldi d _ _ | .ldin d _ _ | .insi d _ _ | .addi16 d _ | .ldi16 d _ | .shli16 d _ | .shri16 d _ => [d]
  | _ => []

end Sys2Proof.Claims

/-- The frame of the scalar instructions: nothing but the acting stream changes, no other register of it but the
destination, and no byte of memory. -/
def Sys2Proof.Claims.ScalarFrame : Prop :=
  ∀ (s t : State) (k : Nat) (st : StreamId) (i : Instr) (d : Reg), s.turn = some (k, st) → scalarDest i = some d →
    exec i s = .next t →
      OnlyStream k st s t ∧ SameMemory s t ∧ (∀ r, r ≠ d → t.reg k st r = s.reg k st r) ∧ t.stackOf k st = s.stackOf k st

/-- R166: a scalar instruction of any form, one of whose registers is pending, stalls: no register, no position and no byte
changes. -/
def Sys2Proof.Claims.ScalarStall : Prop :=
  ∀ (s : State) (k : Nat) (st : StreamId) (i : Instr), s.turn = some (k, st) → (scalarDest i).isSome →
    s.anyPending k st (scalarRegs i) = true →
    ∃ t, exec i s = .next t ∧ t = s.waitOn k st .register ∧ t.pos k st = s.pos k st ∧
      (∀ r, t.reg k st r = s.reg k st r) ∧ OnlyStream k st s t ∧ SameMemory s t

/-! ### Transfers -/

namespace Sys2Proof.Claims

/-- The stream leaves its block for the header at an address. -/
def went (s : State) (k : Nat) (st : StreamId) (hdr : Nat) : Out := .next (s.retireTo k st hdr)

/-- The stream goes on after an instruction of two halfwords. -/
def wentOn (s : State) (k : Nat) (st : StreamId) : Out := .next (s.retire k st 2)

/-- Cause 0x03 with reason 6 at the instruction. -/
def noHeader (s : State) (k : Nat) (st : StreamId) (i : Instr) : Out := .next (s.raise k st 0x03 (malformed 6 (instrWord i).toNat))

end Sys2Proof.Claims

/-- R173: each conditional branch compares its registers; taken it goes to the header its offset names, not taken it goes on,
and taken to an address without a header it raises cause 0x03, reason 6. -/
def Sys2Proof.Claims.ConditionalBranches : Prop :=
  ∀ (s : State) (k : Nat) (st : StreamId) (a b : Reg) (o : BitVec 12), Acts s k st [a, b] →
    let x := s.reg k st a
    let y := s.reg k st b
    let h := (((s.pos k st).hdr + 4 * o.toInt) % 2 ^ 57).toNat
    let takes (i : Instr) (taken : Prop) : Prop :=
      (taken → s.badTarget k h = none → s.targetFail k h = none → exec i s = went s k st h) ∧
      (taken → s.badTarget k h ≠ none → exec i s = noHeader s k st i) ∧
      (¬ taken → exec i s = wentOn s k st)
    takes (.beq a b o) (x = y) ∧ takes (.bne a b o) (x ≠ y) ∧
    takes (.blt a b o) (x.toInt < y.toInt) ∧ takes (.bge a b o) (y.toInt ≤ x.toInt) ∧
    takes (.bltu a b o) (x.toNat < y.toNat) ∧ takes (.bgeu a b o) (y.toNat ≤ x.toNat)

/-- A conditional branch that is taken to a word whose fetch fails goes there, and the fault is the target's
(notes/assumptions/17, the model's reading). -/
def Sys2Proof.Claims.BranchBeforeFault : Prop :=
  ∀ (s : State) (k : Nat) (st : StreamId) (a b : Reg) (o : BitVec 12) (h : Nat), Acts s k st [a, b] →
    h = (((s.pos k st).hdr + 4 * o.toInt) % 2 ^ 57).toNat → s.badTarget k h = none → s.targetFail k h ≠ none →
    (s.reg k st a = s.reg k st b → exec (.beq a b o) s = went s k st h) ∧
    (s.reg k st a ≠ s.reg k st b → exec (.bne a b o) s = went s k st h) ∧
    ((s.reg k st a).toInt < (s.reg k st b).toInt → exec (.blt a b o) s = went s k st h) ∧
    ((s.reg k st b).toInt ≤ (s.reg k st a).toInt → exec (.bge a b o) s = went s k st h) ∧
    ((s.reg k st a).toNat < (s.reg k st b).toNat → exec (.bltu a b o) s = went s k st h) ∧
    ((s.reg k st b).toNat ≤ (s.reg k st a).toNat → exec (.bgeu a b o) s = went s k st h)

/-- R174: JMP and JMPR transfer, also to a word whose fetch will fail (notes/assumptions/17); CALL and CALLR push the next
header; RET pops. -/
def Sys2Proof.Claims.UnconditionalTransfers : Prop :=
  ∀ (s : State) (k : Nat) (st : StreamId) (a : Reg) (o : BitVec 12) (h : Nat), Acts s k st [a] → s.badTarget k h = none →
    (h = (((s.pos k st).hdr + 4 * o.toInt) % 2 ^ 57).toNat → exec (.jmp o) s = went s k st h ∧
      ((s.stackOf k st).length < 8 →
        exec (.call o) s = went (s.setStack k st ((s.pos k st).nextHeader :: s.stackOf k st)) k st h)) ∧
    (h = (s.reg k st a).toNat → h < 2 ^ 57 → exec (.jmpr a) s = went s k st h ∧
      ((s.stackOf k st).length < 8 →
        exec (.callr a) s = went (s.setStack k st ((s.pos k st).nextHeader :: s.stackOf k st)) k st h)) ∧
    ∀ l, s.stackOf k st = h :: l → exec .ret s = went (s.setStack k st l) k st h

/-- R57 and R174: a ninth push and a RET on an empty stack raise cause 0x0C, with the depth and bit 4 for a pop. -/
def Sys2Proof.Claims.CallDepth : Prop :=
  ∀ (s : State) (k : Nat) (st : StreamId) (a : Reg) (o : BitVec 12), Acts s k st [a] →
    ((s.stackOf k st).length = 8 → s.badTarget k (target (s.pos k st).hdr o) = none →
      exec (.call o) s = .next (s.raise k st 0x0C 8)) ∧
    ((s.stackOf k st).length = 8 → (s.reg k st a).toNat < 2 ^ 57 → s.badTarget k (s.reg k st a).toNat = none →
      exec (.callr a) s = .next (s.raise k st 0x0C 8)) ∧
    (s.stackOf k st = [] → exec .ret s = .next (s.raise k st 0x0C 16))

/-- R174 with R213: a transfer changes no register and no memory, and a transfer or an RLABEL that finds no header changes no
call stack. (A trap stops the core's other streams; a PHNEXT that waits then loses its signal, which TrapStopsNext states.) -/
def Sys2Proof.Claims.TransferFrame : Prop :=
  ∀ (s t : State) (k : Nat) (st : StreamId) (i : Instr),
    s.turn = some (k, st) → (s.core k).raised = none → (s.core k).priv = false → (s.core k).trapvec ≠ 0 →
    (s.core k).trapBad = false → NoNextWaits s k →
    (match i with
      | .beq _ _ _ | .bne _ _ _ | .blt _ _ _ | .bge _ _ _ | .bltu _ _ _ | .bgeu _ _ _ | .jmp _ | .jmpr _ | .call _
      | .callr _ | .ret | .rlabel _ => True
      | _ => False) →
    exec i s = .next t →
      SameMemory s t ∧ OnlyCore k s t ∧ (∀ x r, bankGet (t.stream k x).regs r = bankGet (s.stream k x).regs r) ∧
      (∀ x, x ≠ st → (t.stream k x).stack = (s.stream k x).stack ∧ (t.stream k x).pos = (s.stream k x).pos) ∧
      ((t.core k).priv = true → (t.stream k st).stack = (s.stream k st).stack)

/-- R213: RLABEL records the block its offset names, and nothing else of the stream; a target
whose fetch fails raises the fetch's cause (notes/assumptions/17). -/
def Sys2Proof.Claims.ResumeLabel : Prop :=
  ∀ (s : State) (k : Nat) (st : StreamId) (o : BitVec 11) (h : Nat),
    s.turn = some (k, st) → h = (((s.pos k st).hdr + 4 * o.toInt) % 2 ^ 57).toNat →
    (s.badTarget k h = none → s.targetFail k h = none →
      exec (.rlabel o) s = .next ((s.setStream k st { s.stream k st with rlabel := h }).retire k st 2)) ∧
    (s.badTarget k h ≠ none → exec (.rlabel o) s = noHeader s k st (.rlabel o)) ∧
    (∀ f, s.badTarget k h = none → s.targetFail k h = some f → exec (.rlabel o) s = .next (s.raise k st f.cause f.info))

/-! ### Fetching and stepping -/

/-- A step of a stream fetches what stands at its position and runs it: a parcel of one halfword, or of two, that decodes to an
instruction is executed by exec. That a step settles the agenda first and then gives one stream its turn, and that afterwards what is due
is put on the agenda and the turn passes (settle), is the model's choice (log 1, DESIGN CHOICE): the spec gives no schedule. -/
def Obligations.StepRunsDecoded : Prop :=
  ∀ (s s1 s2 : State) (k : Nat) (st : StreamId) (b0 b1 b2 b3 : Byte) (i : Instr),
    s.resetDue = [] → s.agenda = [] → s.turn = some (k, st) → s.runnable k st = true → (s.pos k st).entry = .inside →
    s.fetchHalf k (s.fetchAddr k st) = (s1, .ok (b0, b1)) →
    (half b0 b1 < 32768 → decode [b0, b1] = .ok (i, []) →
      step s = match exec i s1 with
        | .next t => .next t.settle
        | .fault f => .fault f
        | .refused r => .refused r) ∧
    (32768 ≤ half b0 b1 → (s.pos k st).off + 1 < (s.pos k st).len →
      s1.fetchHalf k ((s.fetchAddr k st + 2) % 2 ^ 57) = (s2, .ok (b2, b3)) → decode [b0, b1, b2, b3] = .ok (i, []) →
      (match i with
        | .call _ | .callr _ => (s.pos k st).off + 2 = (s.pos k st).len
        | _ => True) →
      step s = match exec i s2 with
        | .next t => .next t.settle
        | .fault f => .fault f
        | .refused r => .refused r)

/-- A step first runs the oldest event of the agenda, if it holds one: the model's choice (log 1, DESIGN CHOICE). (The resets of partitions that an uncorrectable error
asks for are taken in a step of their own before it, as log 75 says.) -/
def Sys2Proof.Claims.StepRunsEvents : Prop :=
  ∀ (s : State) (e : Instr) (l : List Instr),
    (s.resetDue = [] → s.agenda = e :: l → encode e = none → step s = exec e { s with agenda := l }) ∧
    (s.resetDue ≠ [] → step s = .next s.takeResets)

/-- R76, R78: BLOCK_FETCH enters a block: the stream stands at its first parcel with the length and count its header gives; a
block that is executed zero times is passed over. -/
def Sys2Proof.Claims.BlockEntry : Prop :=
  ∀ (s s1 : State) (k : Nat) (st : StreamId) (w : Nat), s.runnable k st = true → (s.pos k st).entry = .fresh →
    (s.pos k st).hdr % 4 = 0 → s.fetchWord k (s.pos k st).hdr = (s1, .ok w) → w / 2 ^ 24 = 255 → headerReason w = 0 →
    (∀ r, headerReg w = some r → (s1.core k).pending st r = false) →
    exec (.blockFetch k st) s = .next
      (if headerCount w (s1.reg k st) = 0 then s1.setPos k st (Pos.enter (((s.pos k st).hdr + 4 + 2 * (w / 2 ^ 12 % 4096) + 3) / 4 * 4))
      else (s1.chargeBlock k (s.pos k st).hdr (w / 2 ^ 12 % 4096)).setPos k st
        ⟨(s.pos k st).hdr, 0, w / 2 ^ 12 % 4096, headerCount w (s1.reg k st), .inside⟩)

/-! ### Memory -/

namespace Sys2Proof.Claims

/-- The loads of R177: bytes, and whether the value is sign-extended. -/
def loads (d c : Reg) (l : BitVec 8) (r : BitVec 2) : List (Instr × Nat × Bool) :=
  [(.ldb d c l r, 1, false), (.ldbs d c l r, 1, true), (.ldh d c l r, 2, false), (.ldhs d c l r, 2, true),
    (.ldw d c l r, 4, false), (.ldws d c l r, 4, true), (.ldd d c l r, 8, false)]

/-- The stores of R177, with their bytes. -/
def stores (d c : Reg) (l : BitVec 8) (r : BitVec 2) : List (Instr × Nat) :=
  [(.stb d c l r, 1), (.sth d c l r, 2), (.stw d c l r, 4), (.std d c l r, 8)]

/-- The atomics of R184 but ATCAS: operation, width, and whether it exists as a PCIe AtomicOp (R163). -/
def atomics (d c : Reg) (l : BitVec 8) (r : BitVec 2) (x : BitVec 1) : List (Instr × AtOp × Nat × Bool) :=
  [(.atadd d c l r x, .add, 8, true), (.ataddw d c l r x, .addw, 4, true), (.atfadd d c l r x, .fadd, 4, false),
    (.atmin d c l r x, .min, 8, false), (.atmax d c l r x, .max, 8, false), (.atminu d c l r x, .minu, 8, false),
    (.atmaxu d c l r x, .maxu, 8, false), (.atand d c l r x, .and, 8, false), (.ator d c l r x, .or, 8, false),
    (.atxor d c l r x, .xor, 8, false), (.atxchg d c l r x, .xchg, 8, true), (.atfmin d c l r x, .fmin, 4, false),
    (.atfmax d c l r x, .fmax, 4, false)]

/-- The new word of an integer atomic, as the table of R184 gives it. -/
def newWord (op : AtOp) (old v w : Word) : Word :=
  match op with
  | .add => word (old.toNat + v.toNat)
  | .addw => word ((old.toNat + v.toNat) % 2 ^ 32)
  | .min => if old.toInt ≤ v.toInt then old else v
  | .max => if old.toInt ≤ v.toInt then v else old
  | .minu => if old.toNat ≤ v.toNat then old else v
  | .maxu => if old.toNat ≤ v.toNat then v else old
  | .and => old &&& v
  | .or => old ||| v
  | .xor => old ^^^ v
  | .xchg => v
  | .cas => if old = v then w else old
  | .fadd => zeroExt (fp32Add (old.setWidth 32) (v.setWidth 32))
  | .fmin => zeroExt (fp32Min (old.setWidth 32) (v.setWidth 32))
  | .fmax => zeroExt (fp32Max (old.setWidth 32) (v.setWidth 32))

/-- An access issues: it is put behind the stream's outstanding accesses, the stream goes on, and the event that performs
it is due. -/
def issues (s : State) (k : Nat) (st : StreamId) (a : Access) (e : Instr) : Out :=
  .next (((s.pushAccess k st a).retire k st 2).later e)

/-- The loads counter, or the stores counter, of a stream is below its 65,535 (R110). -/
def HasRoom (s : State) (k : Nat) (st : StreamId) (load : Bool) : Prop :=
  ((s.stream k st).accesses.filter fun a => a.kind.isLoad == load).length < 65535

end Sys2Proof.Claims

/-- R110, R176 and R177: a load or store whose checks pass issues an access to the bytes its layout's address names, in address
order; a store carries its register. One that finds its own counter at its greatest value waits. -/
def Sys2Proof.Claims.MemoryIssue : Prop :=
  ∀ (s s1 : State) (k : Nat) (st : StreamId) (d c : Reg) (l : BitVec 8) (r : BitVec 2) (y : Layout) (addr : Nat)
    (ls : List Loc), Acts s k st [d, c] →
    (∀ i n sg, (i, n, sg) ∈ loads d c l r →
      (¬ HasRoom s k st true → exec i s = .next (s.waitOn k st .unit)) ∧
      (HasRoom s k st true →
        s.find k l.toNat (s.reg k st c) ⟨n, true, false, decide (n = 8), false, false, false⟩ = (s1, .bytes y addr ls) →
        exec i s = issues s1 k st
          ⟨.load d sg, ls, 0, addr, r, y.bind, y.allocates, (s.pos k st).hdr, (s.pos k st).off, 0⟩ (.loadReturn k st))) ∧
    (∀ i n, (i, n) ∈ stores d c l r →
      (¬ HasRoom s k st false → exec i s = .next (s.waitOn k st .unit)) ∧
      (HasRoom s k st false →
        s.find k l.toNat (s.reg k st c) ⟨n, false, true, decide (n = 8), false, false, false⟩ = (s1, .bytes y addr ls) →
        exec i s = issues s1 k st
          ⟨.store, ls, s.reg k st d, addr, r, y.bind, y.allocates, (s.pos k st).hdr, (s.pos k st).off, 0⟩ (.storePerform k st)))

/-- R73, R140, R141: where the checks find bytes, they are those of the element's address: BASE plus each index times its stride,
reduced modulo 2^57 and swizzled, with every index within its extent; and the bytes are those of the layout's space from that
address on: the core's scratch, its twin's, its cluster's, or what the address translates to. -/
def Sys2Proof.Claims.ElementAddress : Prop :=
  ∀ (s s1 : State) (k num : Nat) (coords : Word) (q : Ask) (y : Layout) (addr : Nat) (ls : List Loc),
    s.find k num coords q = (s1, .bytes y addr ls) →
      let run (f : Nat → Loc) : Prop := ls = (List.range q.width).map fun i => f (addr + i)
      s.layout k num q.rd q.wr q.wr = .ok y ∧ ls.length = q.width ∧ addr = y.address (y.index coords []) ∧
      (∀ i, i ≤ y.ndim → 0 ≤ (y.index coords []).getD i 0 ∧ (y.index coords []).getD i 0 < (y.ext.getD i 0 : Nat)) ∧
      (q.atomic = true → q.width ∣ addr) ∧ SameMemory s s1 ∧
      (y.space = 0 → run (.scratch k) ∧ addr + q.width ≤ (s.core k).scratchSize) ∧
      (y.space = 1 → run (.scratch (twinOf k)) ∧ addr + q.width ≤ (s.core (twinOf k)).scratchSize) ∧
      (y.space = 2 → run (.cluster (clusterOf k)) ∧ addr + q.width ≤ 33554432) ∧
      (2 < y.space → s.locateVirtual (clusterOf k) (s.core k).part addr q.width
        ⟨q.rd || (q.fe && !q.wr), q.wr, q.atomic, y.space == 6, none⟩ = (s1, .ok ls))

/-- R160, R389, R390: the bytes of a virtual access that lies in one page are those its leaf maps, in HBM, reached directly where the
leaf has SA, or in the host's memory; the leaf has every right the access needs. -/
def Sys2Proof.Claims.TranslatedBytes : Prop :=
  ∀ (s s1 s2 : State) (cl part va n : Nat) (need : Need) (t : Trans) (ls : List Loc),
    s.translate cl part va = (s1, .ok t) → va + n ≤ t.base + t.size → s.locateVirtual cl part va n need = (s2, .ok ls) →
      t.host = need.host ∧ (need.rd = true → t.rd = true) ∧ (need.wr = true → t.wr = true) ∧
      (need.atomic = true → need.host = true → t.sa = true) ∧ SameMemory s s2 ∧
      ls = (List.range n).map fun i =>
        let pa := t.pa + (va + i - t.base)
        if t.host then .host pa else if t.sa then .direct pa else .hbm pa

/-- R180: an access outside the extents raises no trap: a load returns the fill value, a store is dropped and counted. -/
def Sys2Proof.Claims.OutOfBounds : Prop :=
  ∀ (s s1 : State) (k : Nat) (st : StreamId) (d c : Reg) (l : BitVec 8) (r : BitVec 2) (y : Layout),
    Acts s k st [d, c] → (∀ ld, HasRoom s k st ld) →
    (∀ i n sg, (i, n, sg) ∈ loads d c l r →
      s.find k l.toNat (s.reg k st c) ⟨n, true, false, decide (n = 8), false, false, false⟩ = (s1, .outside y) →
      (y.fill = false → exec i s = .next ((s1.setReg k st d 0).retire k st 2)) ∧
      exec i s = .next ((s1.setReg k st d (loadValue n sg (leNat (y.fillBytes n)))).retire k st 2)) ∧
    (∀ i n, (i, n) ∈ stores d c l r →
      s.find k l.toNat (s.reg k st c) ⟨n, false, true, decide (n = 8), false, false, false⟩ = (s1, .outside y) →
      exec i s = .next ((s1.drops k y.tid 1).retire k st 2))

/-- R180: a full/empty operation and an atomic outside the extents raise no trap and do not wait: LDF, LDFE and an atomic that returns
write the fill value, a store and an atomic are dropped and counted once, SETE does nothing. -/
def Sys2Proof.Claims.OutOfBoundsWords : Prop :=
  ∀ (s s1 : State) (k : Nat) (st : StreamId) (d c : Reg) (l : BitVec 8) (r : BitVec 2) (y : Layout),
    let fill (n : Nat) : Word := word (leNat (y.fillBytes n))
    (Acts s k st [d, c] →
      s.find k l.toNat (s.reg k st c) ⟨8, true, false, false, true, false, false⟩ = (s1, .outside y) →
      ∀ i ∈ [Instr.ldf d c l r, .ldfe d c l r], exec i s = .next ((s1.setReg k st d (fill 8)).retire k st 2)) ∧
    (s.find k l.toNat (s.reg k st c) ⟨8, false, true, false, true, false, false⟩ = (s1, .outside y) →
      (Acts s k st [d, c] → ∀ i ∈ [Instr.ste d c l r, .stf d c l r], exec i s = .next ((s1.drops k y.tid 1).retire k st 2)) ∧
      (Acts s k st [0, c] → exec (.sete c l r) s = .next (s1.retire k st 2))) ∧
    (∀ i op n p x, (i, op, n, p) ∈ atomics d c l r x → Acts s k st [d, c] → HasRoom s k st (x == 1) →
      s.find k l.toNat (s.reg k st c) ⟨n, true, true, false, false, true, p⟩ = (s1, .outside y) →
      (x = 1 → exec i s = .next (((s1.drops k y.tid 1).setReg k st d (fill n)).retire k st 2)) ∧
      (x = 0 → exec i s = .next ((s1.drops k y.tid 1).retire k st 2))) ∧
    (Acts s k st [d, d + 1, c] → HasRoom s k st true →
      s.find k l.toNat (s.reg k st c) ⟨8, true, true, false, false, true, true⟩ = (s1, .outside y) →
      exec (.atcas d c l r) s = .next (((s1.drops k y.tid 1).setReg k st d (fill 8)).retire k st 2))

/-- R176: a load or store whose check fails raises the cause of that check, and performs no part of its access. -/
def Sys2Proof.Claims.MemoryTraps : Prop :=
  ∀ (s s1 : State) (k : Nat) (st : StreamId) (d c : Reg) (l : BitVec 8) (r : BitVec 2) (cause : Nat) (info : Word),
    Acts s k st [d, c] → (∀ ld, HasRoom s k st ld) →
    (∀ i n sg, (i, n, sg) ∈ loads d c l r →
      s.find k l.toNat (s.reg k st c) ⟨n, true, false, decide (n = 8), false, false, false⟩ = (s1, .trap cause info) →
      exec i s = .next (s1.raise k st cause info) ∧ SameMemory s s1) ∧
    (∀ i n, (i, n) ∈ stores d c l r →
      s.find k l.toNat (s.reg k st c) ⟨n, false, true, decide (n = 8), false, false, false⟩ = (s1, .trap cause info) →
      exec i s = .next (s1.raise k st cause info) ∧ SameMemory s s1)

/-- R177, R153, R166 and R179: a load returns: its register takes its bytes, little-endian, extended as its kind says, no other
register changes, and no byte of memory but what the order field sends home first. One that meets an uncorrectable error keeps its
register and raises cause 0x13 with its address and position. -/
def Sys2Proof.Claims.LoadReturns : Prop :=
  ∀ (s : State) (k : Nat) (st : StreamId) (a : Access) (rest : List Access) (d : Reg) (sg : Bool),
    (s.stream k st).accesses = a :: rest → a.kind = .load d sg → s.accessHeld k st a = false → (s.core k).raised = none →
    let s1 := s.ordered k a.order a.locs
    let n := a.locs.length
    let got := leNat (a.locs.map (s1.coreGet k))
    (a.order = 0 → s1 = s) ∧
    (s1.loadBad k a = false → ∃ t, exec (.loadReturn k st) s = .next t ∧ (t.stream k st).accesses = rest ∧
      (∀ r, t.reg k st r = if r = 0 then 0 else if r ≠ d then s.reg k st r
        else if sg = true then wordI (if got % 2 ^ (8 * n) < 2 ^ (8 * n - 1) then (got % 2 ^ (8 * n) : Nat) else (got % 2 ^ (8 * n) : Nat) - 2 ^ (8 * n))
        else word got) ∧
      SameMemory s1 t ∧ t.pos k st = s.pos k st) ∧
    (s1.loadBad k a = true →
      exec (.loadReturn k st) s = .next ((s1.popAccess k st).raiseAt k st 0x13 (word (a.addr % 2 ^ 57)) a.hdr a.off))

/-- R177, R153: a store is performed: the core reads the low bytes of its register at the store's locations, lowest first, and every
other byte is as before at its home, but for what the order field sends home first. -/
def Sys2Proof.Claims.StorePerformed : Prop :=
  ∀ (s : State) (k : Nat) (st : StreamId) (a : Access) (rest : List Access),
    s.memoryWf → (s.stream k st).accesses = a :: rest → a.kind = .store → s.accessHeld k st a = false →
    (s.core k).raised = none → Apart a.locs →
    let s1 := s.ordered k a.order a.locs
    (a.order = 0 → s1 = s) ∧
    ∃ t, exec (.storePerform k st) s = .next t ∧ (t.stream k st).accesses = rest ∧
      (∀ p ∈ a.locs.zip (leBytes a.locs.length a.value.toNat), t.coreGet k p.1 = p.2) ∧
      SameOutside (s.keyOf k) a.locs s1 t ∧ (∀ r, t.reg k st r = s.reg k st r) ∧ t.pos k st = s.pos k st

/-- R184 and R185: an atomic whose checks pass issues; with W[1] set, and in ATCAS always, it will return the old word. -/
def Sys2Proof.Claims.AtomicIssue : Prop :=
  ∀ (s s1 : State) (k : Nat) (st : StreamId) (d c : Reg) (l : BitVec 8) (r : BitVec 2) (y : Layout) (addr : Nat)
    (ls : List Loc),
    (∀ i op n p x, (i, op, n, p) ∈ atomics d c l r x → Acts s k st [d, c] → HasRoom s k st (x == 1) →
      s.find k l.toNat (s.reg k st c) ⟨n, true, true, false, false, true, p⟩ = (s1, .bytes y addr ls) →
      exec i s = issues s1 k st ⟨.atomic op (s.reg k st (d + 1)) (if x = 1 then some d else none), ls, s.reg k st d, addr, r,
        y.bind, y.allocates, (s.pos k st).hdr, (s.pos k st).off, 0⟩ (.atomicPerform k st)) ∧
    (Acts s k st [d, d + 1, c] → HasRoom s k st true →
      s.find k l.toNat (s.reg k st c) ⟨8, true, true, false, false, true, true⟩ = (s1, .bytes y addr ls) →
      exec (.atcas d c l r) s = issues s1 k st ⟨.atomic .cas (s.reg k st (d + 1)) (some d), ls, s.reg k st d, addr, r, y.bind,
        y.allocates, (s.pos k st).hdr, (s.pos k st).off, 0⟩ (.atomicPerform k st))

/-- R161, R184 to R187: an atomic is performed at the home of its word, after the core's own copy of it has gone home: the word
becomes what the table gives for the old word and the operand, and no other byte changes; where it returns, the old word waits
to be written. -/
def Sys2Proof.Claims.AtomicPerformed : Prop :=
  ∀ (s : State) (k : Nat) (st : StreamId) (a : Access) (rest : List Access) (op : AtOp) (w : Word) (rd : Option Reg),
    s.memoryWf → (s.stream k st).accesses = a :: rest → a.kind = .atomic op w rd → s.accessHeld k st a = false →
    (s.core k).raised = none → Apart a.locs → a.locs.length = op.width →
    let s1 := s.syncSectors k a.locs
    let old := word (leNat (a.locs.map (s1.homeGet (s.keyOf k))))
    (∀ l ∈ a.locs, s1.locBad l = false) →
    ∃ t, exec (.atomicPerform k st) s = .next t ∧
      (∀ p ∈ a.locs.zip (leBytes a.locs.length (newWord op old a.value w).toNat), t.homeGet (s.keyOf k) p.1 = p.2) ∧
      SameOutside (s.keyOf k) a.locs s1 t ∧ (∀ r, t.reg k st r = s.reg k st r) ∧
      (rd = none → (t.stream k st).accesses = rest) ∧
      ∀ d, rd = some d → (t.stream k st).accesses = { a with kind := .returning d, value := old } :: rest

/-- R185: the old word of an atomic reaches its register. -/
def Sys2Proof.Claims.AtomicReturns : Prop :=
  ∀ (s : State) (k : Nat) (st : StreamId) (a : Access) (rest : List Access) (d : Reg),
    (s.stream k st).accesses = a :: rest → a.kind = .returning d → s.accessHeld k st a = false → (s.core k).raised = none →
    exec (.loadReturn k st) s = .next ((s.popAccess k st).setReg k st d a.value)

/-- R181: the full/empty operations whose condition holds, where no other stream waits: LDF and LDFE return the word, LDFE empties
it, STE and STF write it and fill it, SETE empties it and keeps the data. The bytes that move are charged (R409). (That LDF and
LDFE ask for the right to read alone, and STE, STF and SETE for the right to write alone, is the model's reading: R151 and R181 name
no right for the bit, log 70.) -/
def Sys2Proof.Claims.FullEmptyWords : Prop :=
  ∀ (s s1 : State) (k : Nat) (st : StreamId) (d c : Reg) (l : BitVec 8) (r : BitVec 2) (y : Layout) (addr : Nat)
    (w : Loc) (ls : List Loc),
    let got := word (leNat ((w :: ls).map (s1.homeGet (s1.keyOf k))))
    let moved := s1.chargeLocs k (w :: ls)
    let put := (moved.homeSetAll (s1.keyOf k) ((w :: ls).zip (leBytes 8 (s1.reg k st d).toNat))).commitLoc k (w :: ls)
    let reads := s.find k l.toNat (s.reg k st c) ⟨8, true, false, false, true, false, false⟩ = (s1, .bytes y addr (w :: ls))
    let writes := s.find k l.toNat (s.reg k st c) ⟨8, false, true, false, true, false, false⟩ = (s1, .bytes y addr (w :: ls))
    (s1.core k).quiet st = true → s1.waiters = [] → Acts s k st [d, c] → Acts s k st [0, c] →
    (reads → s1.wordFull w = true → (∀ x ∈ w :: ls, s1.locBad x = false) →
      exec (.ldf d c l r) s = .next ((moved.setReg k st d got).retire k st 2) ∧
      exec (.ldfe d c l r) s = .next (((moved.setWordFull w false).setReg k st d got).retire k st 2)) ∧
    (writes → s1.wordFull w = false → exec (.ste d c l r) s = .next ((put.setWordFull w true).retire k st 2)) ∧
    (writes →
      exec (.stf d c l r) s = .next ((put.setWordFull w true).retire k st 2) ∧
      exec (.sete c l r) s = .next (((s1.setWordFull w false).commitLoc k (w :: ls)).retire k st 2))

/-- R142: an access to a FIFO bank takes the eight bytes at its head, or puts eight at its tail, in arrival order. -/
def Sys2Proof.Claims.FifoServed : Prop :=
  ∀ (s : State) (k : Nat) (st : StreamId) (a : Access) (rest : List Access) (b : Nat),
    (s.stream k st).accesses = a :: rest → s.accessHeld k st a = false → (s.core k).raised = none →
    (∀ d, a.kind = .fifoLoad b d → 8 ≤ (s.fifoBytes (clusterOf k) b).length → s.fifoAhead (clusterOf k) b true a.order0 = false →
      s.fifoError (clusterOf k) b 8 = false →
      ∃ t, exec (.fifoServe k st) s = .next t ∧
        t.fifoBytes (clusterOf k) b = (s.fifoBytes (clusterOf k) b).drop 8 ∧ (t.stream k st).accesses = rest ∧
        (d ≠ 0 → t.reg k st d = word (leNat ((s.fifoBytes (clusterOf k) b).take 8))) ∧ SameMemory s t) ∧
    (a.kind = .fifoStore b → (s.fifoBytes (clusterOf k) b).length + 8 ≤ 524288 →
      s.fifoAhead (clusterOf k) b false a.order0 = false →
      ∃ t, exec (.fifoServe k st) s = .next t ∧
        t.fifoBytes (clusterOf k) b = s.fifoBytes (clusterOf k) b ++ leBytes 8 a.value.toNat ∧
        (t.stream k st).accesses = rest ∧ SameMemory s t)

/-! ### Events, counters and meetings -/

namespace Sys2Proof.Claims

/-- A stream waits for an event, with EWAIT, or with EWAITK where `keep`. -/
def AwaitsEvent (s : State) (k : Nat) (x : StreamId) (n : Nat) (keep : Bool) : Prop :=
  ∃ len m, (s.stream k x).wait = some (.event n keep len, m)

end Sys2Proof.Claims

/-- R67 and R191: EPOST sets its event. Every EWAITK of another stream that waits for it completes; of the EWAITs, the first in the
order C, T, A, H alone, which clears the event. No other event changes. Both forms of EPOST. -/
def Sys2Proof.Claims.EventPost : Prop :=
  ∀ (s : State) (k : Nat) (st : StreamId) (n : BitVec 5) (i : Instr) (len : Nat), s.turn = some (k, st) →
    (i = .epost n ∧ len = 2 ∨ i = .epost16 n ∧ len = 1) →
    ∃ t, exec i s = .next t ∧ SameMemory s t ∧
      (t.pos k st = (s.pos k st).after len) ∧ (t.stream k st).seq = (s.stream k st).seq + 1 ∧
      (∀ m, m ≠ n.toNat → (t.core k).event m = (s.core k).event m) ∧
      ((∀ x, x ≠ st → ¬ AwaitsEvent s k x n.toNat false) → (t.core k).event n.toNat = true) ∧
      (∀ x, x ≠ st → AwaitsEvent s k x n.toNat false → (t.core k).event n.toNat = false) ∧
      (∀ x, x ≠ st → AwaitsEvent s k x n.toNat true → (t.stream k x).wait = none ∧
        (t.stream k x).seq = (s.stream k x).seq + 1) ∧
      (∀ x y, x ≠ st → y ≠ st → x.num < y.num → AwaitsEvent s k x n.toNat false → AwaitsEvent s k y n.toNat false →
        (t.stream k y).wait = (s.stream k y).wait)

/-- R67 and R191: EWAIT on a set event completes and clears it, EWAITK completes and leaves it set; on a clear event the stream
waits. -/
def Sys2Proof.Claims.EventWait : Prop :=
  ∀ (s : State) (k : Nat) (st : StreamId) (n : BitVec 5), s.turn = some (k, st) →
    ((s.core k).event n.toNat = true →
      exec (.ewait n) s = .next ((s.setCore k ((s.core k).setEvent n.toNat false)).retire k st 2) ∧
      exec (.ewait16 n) s = .next ((s.setCore k ((s.core k).setEvent n.toNat false)).retire k st 1) ∧
      exec (.ewaitk n) s = .next (s.retire k st 2) ∧
      ((s.core k).setEvent n.toNat false).event n.toNat = false) ∧
    ((s.core k).event n.toNat = false →
      exec (.ewait n) s = .next (s.waitOn k st (.event n.toNat false 2)) ∧
      exec (.ewait16 n) s = .next (s.waitOn k st (.event n.toNat false 1)) ∧
      exec (.ewaitk n) s = .next (s.waitOn k st (.event n.toNat true 2)))

/-- R192: WAITC completes where all four counters are at or below its fields together, and else waits. -/
def Sys2Proof.Claims.CounterWait : Prop :=
  ∀ (s : State) (k : Nat) (st : StreamId) (l w : BitVec 2) (c : BitVec 3) (e : BitVec 4) (nl ns nc ne : Nat),
    s.turn = some (k, st) → (s.core k).counters st = (nl, ns, nc, ne) →
    (nl ≤ l.toNat ∧ ns ≤ w.toNat ∧ nc ≤ c.toNat ∧ ne ≤ e.toNat → exec (.waitc l w c e) s = .next (s.retire k st 2)) ∧
    (¬ (nl ≤ l.toNat ∧ ns ≤ w.toNat ∧ nc ≤ c.toNat ∧ ne ≤ e.toNat) → exec (.waitc l w c e) s = .next (s.waitOn k st .counters))

/-- R156 and R193: the JOIN that completes a meeting retires the JOINs of all the streams its mask names, and of no other; a JOIN
that does not complete one waits. The event of a meeting does the same for streams that all wait. -/
def Sys2Proof.Claims.Meetings : Prop :=
  ∀ (s : State) (k : Nat) (st : StreamId) (scope : BitVec 2) (mask : BitVec 4), s.turn = some (k, st) →
    mask.getLsbD (3 - st.num) = true → s.clocked k = true →
    let s1 := s.waitOn k st (.join mask scope)
    ((s1.core k).met mask scope = false → exec (.join scope mask) s = .next s1) ∧
    (∀ (u : State) (i : Instr), (u = s1 ∧ i = .join scope mask ∨ u = s ∧ i = .joinMeet k mask scope) →
      (u.core k).met mask scope = true →
      ∃ t, exec i s = .next t ∧ ∀ x : StreamId,
        (mask.getLsbD (3 - x.num) = true → (t.stream k x).wait = none ∧ (t.stream k x).seq = (u.stream k x).seq + 1 ∧
          t.pos k x = (u.pos k x).after 2) ∧
        (mask.getLsbD (3 - x.num) = false → t.stream k x = u.stream k x))

/-! ### Phasers -/

namespace Sys2Proof.Claims

/-- The register names phaser n, in reach and allocated to the core's partition (R194). -/
def NamesPhaser (s : State) (k : Nat) (v : Word) (n : Nat) : Prop :=
  v.toNat = n ∧ 1 ≤ n ∧ n ≤ 320 ∧ (s.phaser (clusterOf k) n).alloc = true ∧ (s.phaser (clusterOf k) n).part = (s.core k).part

end Sys2Proof.Claims

/-- R195 and R196: registration, roles, leaving, signalling and waiting, each where the stream's registration and role allow it.
(The acquire of PHWAIT and PHNEXT discards every clean byte that the core caches, not the data bound to the phaser alone: log 8, the
model's choice.) -/
def Sys2Proof.Claims.PhaserInstructions : Prop :=
  ∀ (s : State) (k : Nat) (st : StreamId) (d a : Reg) (n : Nat) (role : BitVec 2), Acts s k st [a, d] →
    NamesPhaser s k (s.reg k st a) n →
    let cl := clusterOf k
    let p := s.phaser cl n
    let fresh := s.setCore k { s.core k with cache := (s.core k).cache.filter fun x => x.2.dirty }
    let signalled := (s.setPhaser cl n { p with
      gates := p.gates ++ [⟨k, st, s.order, (s.core k).pointKey.1, (s.core k).pointKey.2⟩] }).setMember k st n
        fun x => { x with cursor := (x.cursor + 1) % 2 ^ 32 }
    (s.member k st p = none → (role.getLsbD 0 && p.bytes) = false →
      exec (.phreg a role) s = .next ((s.setPhaser cl n { p with members := p.members ++
        [⟨k, st, role.getLsbD 0, role.getLsbD 1, p.phase, none, (s.core k).pointKey.1, (s.core k).pointKey.2⟩] }).retire k st 2)) ∧
    ∀ m, s.member k st p = some m →
      ((role.getLsbD 0 && p.bytes) = false → exec (.phrole a role) s = .next
        ((s.setMember k st n fun x => { x with newRole := some (role.getLsbD 0, role.getLsbD 1) }).retire k st 2)) ∧
      exec (.phdrop a) s = .next (((s.leavePhaser k st n).commit k).retire k st 2) ∧
      (p.bytes = false → m.sig = true → m.cursor = p.phase → exec (.phsig a) s = .next ((signalled.commit k).retire k st 2)) ∧
      (p.bytes = false → m.sig = true → m.cursor ≠ p.phase → exec (.phsig a) s = .next (s.waitOn k st (.signal n))) ∧
      (∀ ph, ph = (s.reg k st d).toNat % 2 ^ 32 → m.wait = true →
        (p.done ph = true → ¬ (p.bytes = true ∧ p.excess ≠ 0 ∧ (ph + 1) % 2 ^ 32 = p.phase) →
          exec (.phwait d a) s = .next (fresh.retire k st 2)) ∧
        (p.done ph = true → p.bytes = true → p.excess ≠ 0 → (ph + 1) % 2 ^ 32 = p.phase →
          exec (.phwait d a) s = .next ((fresh.retire k st 2).raise k st 0x10 (word (min p.excess (2 ^ 40 - 1) + 2 ^ 40 * n)))) ∧
        (p.done ph = false → exec (.phwait d a) s = .next (s.waitOn k st (.phase n ph none)))) ∧
      ((s.stream k st).wait = none →
        (m.sig = false → p.done m.cursor = true → p.excess = 0 →
          exec (.phnext d a) s = .next (((((if m.wait then fresh else s).setMember k st n
            fun x => { x with cursor := (m.cursor + 1) % 2 ^ 32 }).setReg k st d (word m.cursor)).retire k st 2))) ∧
        (m.sig = false → p.done m.cursor = false →
          exec (.phnext d a) s = .next (s.waitOn k st (.phase n m.cursor (some d)))) ∧
        (m.sig = true → m.cursor = p.phase → p.done m.cursor = false →
          exec (.phnext d a) s = .next (signalled.waitOn k st (.phase n m.cursor (some d)))) ∧
        (m.sig = true → m.cursor ≠ p.phase → exec (.phnext d a) s = .next (s.waitOn k st (.signal n))))

/-- R198: PHEXP posts the expected count of the current phase of a byte-mode phaser. -/
def Sys2Proof.Claims.ExpectedBytes : Prop :=
  ∀ (s : State) (k : Nat) (st : StreamId) (d a : Reg) (n : Nat) (m : Participant), Acts s k st [a, d] →
    NamesPhaser s k (s.reg k st a) n →
    let p := s.phaser (clusterOf k) n
    s.member k st p = some m → p.bytes = true → p.ordEn = false → s.inbound = [] → (s.reg k st d).toNat < 2 ^ 48 →
    (p.posted = none → exec (.phexp d a) s = .next
      (((s.setPhaser (clusterOf k) n { p with posted := some (s.reg k st d).toNat }).commit k).retire k st 2)) ∧
    (p.posted.isSome → exec (.phexp d a) s = .next (s.raise k st 0x0F (word (n + 65536 * 7))))

/-- R196: a phase is done exactly where it lies behind the current one, modulo 2^32. -/
def Sys2Proof.Claims.PhaseOrder : Prop :=
  ∀ (p : Phaser) (n : Nat), p.phase < 2 ^ 32 → n < 2 ^ 32 →
    (p.done n = true ↔ ((p.phase : Int) - 1 - n) % 2 ^ 32 < 2 ^ 31) ∧ (n = p.phase → p.done n = false) ∧
    (p.phase ≠ 0 → n = p.phase - 1 → p.done n = true)

/-- R197 and R198: PHASE_COMPLETE: a phase that is ready completes, so that the next one is current with nothing signalled,
arrived or posted; with nobody waiting and no carve-out due, that, the writes it releases and the mark of an action of R135 at the cores whose signals
now stand are the whole of the effect. -/
def Sys2Proof.Claims.PhaseCompletes : Prop :=
  ∀ (s : State) (cl n : Nat), s.phaseReady cl n = true → s.waiters = [] → s.inbound = [] →
    (∀ x ∈ s.cores, x.2.carve = []) → (n ≤ 64 → (s.cluster cl).stopped = false) →
    ∃ t, exec (.phaseComplete cl n) s = .next t ∧
      t = ((s.releaseAll n (s.phaser cl n).gates).setPhaser cl n (t.phaser cl n)).commitGates (s.phaser cl n).gates ∧
      (t.phaser cl n).phase = ((s.phaser cl n).phase + 1) % 2 ^ 32 ∧ (t.phaser cl n).signalled = false ∧
      (t.phaser cl n).posted = none ∧ (t.phaser cl n).arrived = 0 ∧
      (t.phaser cl n).excess = (match (s.phaser cl n).posted with | some e => (s.phaser cl n).arrived - e | none => 0) ∧
      ∀ m ∈ (s.phaser cl n).members, m.newRole = none → m ∈ (t.phaser cl n).members

/-- R147 and R212: CARVE asks for a tile count at the end of the current phase and does not wait; of two that name one phaser and
phase the later stands, and those of others stay pending (notes/assumptions/35, the model's choice). A core of the crew without a
registered stream gives cause 0x18, reason 1, and the CARVE has retired (R367). -/
def Sys2Proof.Claims.CarveRequest : Prop :=
  ∀ (s : State) (k : Nat) (st : StreamId) (a : Reg) (c : BitVec 6) (n : Nat) (q : Point), Acts s k st [a] →
    NamesPhaser s k (s.reg k st a) n → (s.core k).point = some q →
    let present (j : Nat) : Prop := ∃ m ∈ (s.phaser (clusterOf k) n).members, m.core = j ∧ m.recNo = q.recNo ∧ m.serial = q.serial
    ((∀ j ∈ crewCores q.kind q.base, present j) →
      exec (.carve a c) s = .next ((s.setCore k { s.core k with
        carve := ((s.core k).carve.filter fun x => !(x.phaser == n && x.phase == (s.phaser (clusterOf k) n).phase)) ++
          [⟨c.toNat, n, (s.phaser (clusterOf k) n).phase, st, (s.pos k st).hdr, (s.pos k st).off, (s.core k).onHandler st,
            q.recNo, q.serial⟩] }).retire k st 2)) ∧
    ((∃ j ∈ crewCores q.kind q.base, ¬ present j) → (s.core k).onHandler st = false →
      exec (.carve a c) s = .next ((s.retire k st 2).raiseAt k st 0x18 1 (s.pos k st).hdr (s.pos k st).off))

/-! ### The point, the lamp and the windows -/

/-- R114 and R208: PEND ends the stream's part: it holds no registration, the stream has ended and retired; with a ticket held it
raises cause 0x11, reason 6; in the handler cause 0x04. Both forms. (That it takes no event that counts as progress is log 78, and that
the ticket reported is the one held longest log 87: the model's choices.) -/
def Sys2Proof.Claims.PointPartEnds : Prop :=
  ∀ (s : State) (k : Nat) (st : StreamId) (i : Instr) (len : Nat), s.turn = some (k, st) →
    (i = .pend ∧ len = 2 ∨ i = .pend16 ∧ len = 1) →
    ((s.core k).onHandler st = false → (s.stream k st).tickets = [] →
      ∃ t, exec i s = .next t ∧ (t.stream k st).ended = true ∧ (t.stream k st).seq = (s.stream k st).seq + 1 ∧
        SameMemory s t ∧ (∀ r, t.reg k st r = s.reg k st r) ∧
        t = ((s.leavePhasers k st (s.phaserNumbers (clusterOf k))).retire k st len).setStream k st (t.stream k st)) ∧
    (∀ q w l, (s.core k).onHandler st = false → (s.stream k st).tickets = (q, w) :: l →
      exec i s = .next (s.raise k st 0x11 (word (w + 2 ^ 32 * 6)))) ∧
    ((s.core k).onHandler st = true → exec i s = .next (s.raise k st 0x04 (instrWord i)))

/-- R122, R205 and R207: what a stream asks of its point: PCOORD reads a coordinate, PSELF the place of the core. RNEXT of a RANGE point
takes the next chunk of the crew's remainder, at most a grain; a crew without one takes the returned interval with the lowest start, or
splits the largest remainder of a running crew, where it has received fewer than 32 intervals; else its work is exhausted, and it
receives (-1, -1) then and ever after. -/
def Sys2Proof.Claims.PointQueries : Prop :=
  ∀ (s : State) (k : Nat) (st : StreamId) (d : Reg) (c : BitVec 2) (p : Point), Acts s k st [d, d + 1] →
    (s.core k).point = some p →
    exec (.pcoord d c) s = wrote s k st d 2 (word (p.coords.getD c.toNat 0)) ∧
    exec (.pself d) s = wrote s k st d 2
      (word (k + 2 ^ 11 * p.rank + 2 ^ 15 * p.kind + 2 ^ 17 * (k % 2) + 2 ^ 18 * (k / 16))) ∧
    (p.range = false → exec (.rnext d) s = .next (s.raise k st 0x12 (launchInfo p.recNo 1 0))) ∧
    ∀ f, p.range = true → (s.record p.recNo).arming = p.arming → (s.record p.recNo).points.find? (fun x => x.serial == p.serial) = some f →
      let r := s.record p.recNo
      let g := (r.words.toList.getD 7 0).toNat
      let put (n : Nat) (x : Fired) (l : List Fired) : List Fired := l.map fun y => if y.serial = n then x else y
      let gives (r1 : Record) (a b : Word) : Prop :=
        exec (.rnext d) s = .next (((s.setRecord p.recNo r1).setRegs k st d.toNat [a, b]).retire k st 2)
      let running (w : Fired) : Prop := w ∈ r.points ∧ w.crew.isSome = true
      let rest (w : Fired) : Nat := w.stop - w.cur
      (f.exhausted = true → gives r (-1) (-1)) ∧
      (f.exhausted = false → f.cur < f.stop →
        gives { r with points := put f.serial { f with cur := min (f.cur + g) f.stop } r.points } (word f.cur) (word (min (f.cur + g) f.stop))) ∧
      (f.exhausted = false → f.stop ≤ f.cur → f.nint < 32 → ∀ a b, (a, b) ∈ r.returned →
        (∀ z ∈ r.returned, a < z.1 ∨ z = (a, b)) →
        gives { r with returned := r.returned.erase (a, b), points := put f.serial { f with
          cur := min (a + g) b, stop := b, nint := f.nint + 1, intervals := f.intervals ++ [(a, b)] } r.points } (word a) (word (min (a + g) b))) ∧
      (f.exhausted = false → f.stop ≤ f.cur → f.nint < 32 → r.returned = [] → 0 < g → ∀ v, running v → v.serial ≠ f.serial → 2 * g ≤ rest v →
        (∀ w, running w → rest w < rest v ∨ rest w = rest v ∧ ¬ w.crew.getD 0 < v.crew.getD 0 ∧ (w.crew = v.crew → w = v)) →
        let mid := v.cur + g * ((rest v + 2 * g - 1) / (2 * g))
        let f1 : Fired := { f with
          cur := min (mid + g) v.stop, stop := v.stop, nint := f.nint + 1, intervals := f.intervals ++ [(mid, v.stop)] }
        v.cur < mid ∧ mid < v.stop ∧ ∃ l, gives { r with
          points := put f.serial f1 (put v.serial { v with stop := mid, intervals := l } r.points) } (word mid) (word (min (mid + g) v.stop))) ∧
      (f.exhausted = false → f.stop ≤ f.cur → (32 ≤ f.nint ∨ r.returned = [] ∧ ∀ w, running w → rest w < 2 * g) →
        gives { r with points := put f.serial { f with exhausted := true, cur := f.stop } r.points } (-1) (-1))

/-- R130, R131 and R209: LAMPQ leaves the core holding the lamp or waiting for it; LAMPREL leaves it without a request; LAMPST reads
the lamp. In a launch of class none LAMPQ raises cause 0x12. -/
def Sys2Proof.Claims.LampInstructions : Prop :=
  ∀ (s : State) (k : Nat) (st : StreamId) (d : Reg), Acts s k st [d] → k < 2048 →
    ((s.core k).lampClass ≠ 0 → (s.core k).stop = false → ∃ t, exec .lampq s = .next t ∧
      (t.holdsLamp k = true ∨ (t.shaft (shaftOf k)).reqs.contains k = true) ∧ t.pos k st = (s.pos k st).after 2 ∧
      t = { s with cores := t.cores, shafts := t.shafts, order := t.order }) ∧
    ((s.core k).lampClass = 0 → exec .lampq s = .next (s.raise k st 0x12 (lampInfo .lampq))) ∧
    (s.holdsLamp k = false → ∃ t, exec .lamprel s = .next t ∧ (t.shaft (shaftOf k)).reqs.contains k = false ∧
      t.pos k st = (s.pos k st).after 2 ∧ t = { s with cores := t.cores, shafts := t.shafts }) ∧
    (s.holdsLamp k = true → (s.core k).heavyRunning = false → (s.shaft (shaftOf k)).reqs = [] → ∃ t, exec .lamprel s = .next t ∧
      t.holdsLamp k = false ∧ t.pos k st = (s.pos k st).after 2) ∧
    exec (.lampst d) s = wrote s k st d 2 (word (bit ((s.shaft (shaftOf k)).lower || (s.shaft (shaftOf k)).cal) + 2 * bit (s.shaft (shaftOf k)).upper +
      4 * bit (s.holdsLamp k) + 8 * bit ((s.shaft (shaftOf k)).reqs.contains k) + 16 * bit (s.shaft (shaftOf k)).cool))

/-- R68 and R210: WRD reads a window register of the shaft and WWR writes one, which both twins then read; no other changes. -/
def Sys2Proof.Claims.WindowRegisters : Prop :=
  ∀ (s : State) (k : Nat) (st : StreamId) (d a : Reg) (w : BitVec 3), Acts s k st [d, a] →
    exec (.wrd d w) s = wrote s k st d 2 ((s.shaft (k / 2)).win[w.toNat]'w.isLt) ∧
    ∃ t, exec (.wwr a w) s = .next t ∧ (t.shaft (k / 2)).win[w.toNat]'w.isLt = s.reg k st a ∧
      (∀ v : BitVec 3, v ≠ w → (t.shaft (k / 2)).win[v.toNat]'v.isLt = (s.shaft (k / 2)).win[v.toNat]'v.isLt) ∧
      (∀ j, j ≠ k / 2 → t.shaft j = s.shaft j) ∧ (∀ r, t.reg k st r = s.reg k st r) ∧
      t = { s with cores := t.cores, shafts := t.shafts } ∧ SameMemory s t ∧ t.pos k st = (s.pos k st).after 2

/-! ### State registers, traps and the handler -/

/-- R74 and R214: SRD reads the user state registers; a number that is not assigned raises cause 0x01, a privileged one outside the
handler cause 0x04. %crew holds the crew's lowest core, its kind and the core's rank, %point the record and the serial; both read 0 where no point
stands. %cycle has passed on by at least one (log 5 says by how much: a free number). -/
def Sys2Proof.Claims.StateRegisterRead : Prop :=
  ∀ (s : State) (k : Nat) (st : StreamId) (d : Reg) (n : BitVec 12), Acts s k st [d] →
    let c := s.core k
    let reads (m : Nat) (v : Word) : Prop := n.toNat = m →
      exec (.srd d n) s = .next (((s.setReg k st d v).retire k st 2).draw)
    reads 0 (s.stream k st).seq ∧
    (∀ p, c.point = some p →
      reads 2 (word (p.base + 2 ^ 12 * p.kind + 2 ^ 14 * p.rank)) ∧ reads 3 (word (p.recNo + 2 ^ 16 * p.serial))) ∧
    (c.point = none → reads 2 0 ∧ reads 3 0) ∧
    reads 0x10 c.trapcause ∧ reads 0x11 c.trapinfo ∧ reads 0x12 c.trappc ∧ reads 0x13 c.trapseq ∧
    reads 0x20 (word (s.stream k st).pace.toNat) ∧
    reads 0x21 (word (c.ntiles + 2 ^ 6 * max 2 (min 8 (32 - c.ntiles)) + 2 ^ 12 * (64 - c.ntiles - max 2 (min 8 (32 - c.ntiles))))) ∧
    reads 0x22 (word c.tround.toNat) ∧ reads 0x23 (word c.tsrb) ∧ reads 0x24 (word c.tclamp.toNat) ∧
    reads 0x30 (word (bit ((s.shaft (shaftOf k)).lower || (s.shaft (shaftOf k)).cal) + 2 * bit (s.shaft (shaftOf k)).upper +
      4 * bit (s.holdsLamp k) + 8 * bit ((s.shaft (shaftOf k)).reqs.contains k) + 16 * bit (s.shaft (shaftOf k)).cool)) ∧
    reads 0x40 (tget 0 s.energy (s.pcb c.part).tag) ∧
    (n.toNat = 1 → ∃ m v, 1 ≤ m ∧ m ≤ 2 ^ 32 ∧ v = c.cycle + word m ∧
      exec (.srd d n) s = .next ((((s.passCycles k).setReg k st d v).retire k st 2).draw)) ∧
    (sregAssigned n.toNat = false → exec (.srd d n) s = .next (s.raise k st 0x01 (instrWord (.srd d n)))) ∧
    (sregAssigned n.toNat = true → 0x100 ≤ n.toNat → ¬ (c.priv = true ∧ st = .c) →
      exec (.srd d n) s = .next (s.raise k st 0x04 (instrWord (.srd d n))))

/-- R74, R149, R329, R365: in the handler SRD reads the privileged registers: %trapvec, %wdog, %lampmax, %bankmode of each bank,
%partition, %spos and %srep of each stream, %hold, %accst, and %ureg of each stream's registers. (That the offset in %spos is taken
modulo 128, its seven bits, is the model's reading, log 28.) -/
def Sys2Proof.Claims.PrivilegedRead : Prop :=
  ∀ (s : State) (k : Nat) (d : Reg) (n : BitVec 12), Acts s k .c [d] → (s.core k).priv = true →
    let c := s.core k
    let cl := s.cluster (clusterOf k)
    let reads (m : Nat) (v : Word) : Prop := n.toNat = m →
      exec (.srd d n) s = .next (((s.setReg k .c d v).retire k .c 2).draw)
    reads 0x100 c.trapvec ∧ reads 0x101 c.wdog ∧ reads 0x102 c.lampmax ∧ reads 0x150 c.partition ∧
    (∀ b, b < 64 → reads (0x110 + b) (word (tget 0 cl.bankMode b + 4 * bit (tfind cl.bankBusy b).isSome +
      16 * (if tget 0 cl.bankMode b = 2 then (tget [] cl.fifo b).length else 0)))) ∧
    (∀ x : StreamId,
      reads (0x160 + x.num) (word ((c.stream x).pos.hdr % 2 ^ 57 + 2 ^ 57 * ((c.stream x).pos.off % 128))) ∧
      reads (0x164 + x.num) (word ((c.stream x).pos.reps % 2 ^ 32 + 2 ^ 32 * bit (c.stream x).ended)) ∧
      ∀ r : Reg, reads (0x180 + 32 * x.num + r.toNat) (bankGet (c.stream x).regs r)) ∧
    reads 0x168 (word (8 * bit c.strC.held.isSome + 4 * bit c.strT.held.isSome + 2 * bit c.strA.held.isSome + bit c.strH.held.isSome)) ∧
    reads 0x169 (word (bit c.m0.ov + 2 * bit c.m0.nv + 4 * bit c.m0.sat + 16 * (bit c.m1.ov + 2 * bit c.m1.nv + 4 * bit c.m1.sat)))

/-- R74, R214, R329: SWR writes the user registers that may be written and leaves the others, in the handler it writes the privileged
ones too (%trapvec, %wdog, %lampmax), a privileged number outside the handler raises cause 0x04, and an unassigned number or a
handler address above 57 bits cause 0x01. (That %tsrb clamps all of rs is the model's reading, log 67.) -/
def Sys2Proof.Claims.StateRegisterWrite : Prop :=
  ∀ (s : State) (k : Nat) (st : StreamId) (a : Reg) (n : BitVec 12), Acts s k st [a] →
    let c := s.core k
    let v := s.reg k st a
    let becomes (m : Nat) (c1 : Core) : Prop := n.toNat = m → exec (.swr a n) s = .next ((s.setCore k c1).retire k st 2)
    becomes 0 c ∧ becomes 1 c ∧ becomes 2 c ∧ becomes 3 c ∧ becomes 0x10 c ∧ becomes 0x11 c ∧ becomes 0x12 c ∧ becomes 0x13 c ∧
    becomes 0x20 (c.setStream st { c.stream st with pace := v.setWidth 16 }) ∧ becomes 0x21 c ∧
    becomes 0x22 { c with tround := v.setWidth 2 } ∧ becomes 0x23 { c with tsrb := max 1 (min 32 v.toNat) } ∧
    becomes 0x24 { c with tclamp := v.setWidth 32 } ∧ becomes 0x30 c ∧ becomes 0x40 c ∧
    (c.priv = true → st = .c →
      (v.toNat < 2 ^ 57 → becomes 0x100 { c with trapvec := v }) ∧ becomes 0x101 { c with wdog := word (v.toNat % 2 ^ 32) } ∧
      becomes 0x102 { c with lampmax := word (max 256 (min (2 ^ 24) v.toNat)) }) ∧
    (sregAssigned n.toNat = true → 0x100 ≤ n.toNat → ¬ (c.priv = true ∧ st = .c) →
      exec (.swr a n) s = .next (s.raise k st 0x04 (instrWord (.swr a n)))) ∧
    (sregAssigned n.toNat = false → exec (.swr a n) s = .next (s.raise k st 0x01 (instrWord (.swr a n)))) ∧
    (c.priv = true → st = .c → n.toNat = 0x100 → 2 ^ 57 ≤ v.toNat →
      exec (.swr a n) s = .next (s.raise k st 0x01 (instrWord (.swr a n))))

/-- R365, R66: in the handler SWR writes %spos, which resumes its stream there, %srep, %accst and %ureg; the others of R365 and
R149 and %partition ignore the write. -/
def Sys2Proof.Claims.PrivilegedWrite : Prop :=
  ∀ (s : State) (k : Nat) (a : Reg) (n : BitVec 12), Acts s k .c [a] → (s.core k).priv = true →
    let c := s.core k
    let v := s.reg k .c a
    let becomes (m : Nat) (c1 : Core) : Prop := n.toNat = m → exec (.swr a n) s = .next ((s.setCore k c1).retire k .c 2)
    (∀ x : StreamId,
      let y := c.stream x
      becomes (0x160 + x.num) (c.setStream x { y with pos := { y.pos with
        hdr := v.toNat % 2 ^ 57, off := v.toNat / 2 ^ 57 % 2 ^ 7, entry := .resumed } }) ∧
      becomes (0x164 + x.num) (c.setStream x { y with ended := v.getLsbD 32, pos := { y.pos with
        reps := v.toNat % 2 ^ 32, entry := if y.pos.entry = .fresh ∧ v.toNat % 2 ^ 32 ≠ 0 then .resumed else y.pos.entry } }) ∧
      ∀ r : Reg, becomes (0x180 + 32 * x.num + r.toNat) (c.setStream x { y with regs := bankSet y.regs r v })) ∧
    becomes 0x169 { c with
      m0 := { c.m0 with ov := v.getLsbD 0, nv := v.getLsbD 1, sat := v.getLsbD 2 },
      m1 := { c.m1 with ov := v.getLsbD 4, nv := v.getLsbD 5, sat := v.getLsbD 6 } } ∧
    becomes 0x168 c ∧ becomes 0x150 c ∧ ∀ b, b < 64 → becomes (0x110 + b) c

namespace Sys2Proof.Claims

/-- A user core on which a trap is entered at once: no stream of it has anything in flight (R364, R373), no trap waits, its crew has not
failed, and the handler address is set and can be written to the trap registers (R369). -/
def Interruptible (s : State) (k : Nat) : Prop :=
  (s.core k).acknowledged = true ∧ (s.core k).priv = false ∧ (s.core k).raised = none ∧ (s.core k).stop = false ∧
    (s.core k).trapvec ≠ 0 ∧ (s.core k).failed = false ∧ (s.core k).trapBad = false

end Sys2Proof.Claims

/-- R364: a trap of a core whose streams all stand at their stop units is entered at once: the four trap registers are written
together, the core is privileged, the handler's call stack is empty, and it fetches the block at %trapvec; the user registers,
tiles, events and memory stay as they are. (That the offset in %trappc is taken modulo 128, its seven bits, is the model's reading,
log 28.) -/
def Sys2Proof.Claims.TrapEntry : Prop :=
  ∀ (s : State) (k : Nat) (st : StreamId) (cause : Nat) (info : Word) (hdr off : Nat), Interruptible s k → cause ≠ 0x15 →
    NoNextWaits s k →
    let t := s.raiseAt k st cause info hdr off
    let c := s.core k
    (t.core k).trapcause = word (cause + 256 * st.num) ∧ (t.core k).trapinfo = info ∧
      (t.core k).trappc = word (hdr % 2 ^ 57 + 2 ^ 57 * (off % 128)) ∧ (t.core k).trapseq = (s.stream k st).seq ∧
      (t.core k).priv = true ∧ (t.core k).raised = none ∧ (t.core k).hstack = [] ∧
      (t.core k).hpos = ⟨c.trapvec.toNat % 2 ^ 57, 0, 0, 0, .fresh⟩ ∧ (t.core k).hregs = c.hregs ∧
      (∀ x, (t.stream k x).regs = (s.stream k x).regs ∧ (t.stream k x).pos = (s.stream k x).pos ∧
        (t.stream k x).stack = (s.stream k x).stack ∧ (t.stream k x).seq = (s.stream k x).seq) ∧
      (t.core k).tiles = c.tiles ∧ (t.core k).events = c.events ∧ (t.core k).trapvec = c.trapvec ∧
      SameMemory s t ∧ OnlyCore k s t

/-- R190: a stream that waits in a PHNEXT when a trap stops its core has given no signal: what it had given is taken back, and the
stream waits no longer, to issue the instruction again from the start. -/
def Sys2Proof.Claims.TrapStopsNext : Prop :=
  ∀ (s : State) (k : Nat) (st x : StreamId) (cause : Nat) (info : Word) (hdr off n ph w : Nat) (r : Reg) (m : Participant),
    Interruptible s k → (s.stream k x).wait = some (.phase n ph (some r), w) →
    (∀ y, y ≠ x → ∀ n ph r m, (s.stream k y).wait ≠ some (.phase n ph (some r), m)) →
    s.member k x (s.phaser (clusterOf k) n) = some m → m.cursor = (ph + 1) % 2 ^ 32 →
    let t := s.raiseAt k st cause info hdr off
    (t.stream k x).wait = none ∧ (t.member k x (t.phaser (clusterOf k) n)).map (fun y => y.cursor) = some ph ∧
      (∀ g ∈ (t.phaser (clusterOf k) n).gates, ¬ (g.core = k ∧ g.st = x ∧ (g.recNo, g.serial) = (s.core k).pointKey)) ∧
      (t.core k).committed = (s.core k).committed ∧
      (t.phaser (clusterOf k) n).phase = (s.phaser (clusterOf k) n).phase ∧
      (t.phaser (clusterOf k) n).signalled = (s.phaser (clusterOf k) n).signalled ∧
      (t.stream k x).pos = (s.stream k x).pos ∧ (t.stream k x).seq = (s.stream k x).seq

/-- R364: the event of a trap entry enters a trap that has waited for its core to acknowledge. -/
def Sys2Proof.Claims.TrapEntryEvent : Prop :=
  ∀ (s : State) (k : Nat) (x : TrapRec), (s.core k).raised = some x → (s.core k).acknowledged = true → (s.core k).priv = false →
    (s.core k).stop = false → (s.core k).trapvec ≠ 0 → (s.core k).failed = false → (s.core k).trapBad = false → s.clocked k = true →
    ∃ t, exec (.trapEntry k) s = .next t ∧ (t.core k).priv = true ∧ (t.core k).raised = none ∧ (t.core k).trapinfo = x.info ∧
      (t.core k).trappc = word (x.hdr % 2 ^ 57 + 2 ^ 57 * (x.off % 128)) ∧
      (x.cause ≠ 0x15 → (t.core k).trapcause = word (x.cause + 256 * x.stream.num)) ∧
      (x.cause = 0x15 → (t.core k).trapcause = 0x15) ∧
      (∀ y, t.stream k y = s.stream k y) ∧ OnlyCore k s t

/-- R215: TRAP, BKPT and CHK raise causes 0x17, 0x16 and 0x17 with their number, the instruction's own position in %trappc, and
the stream going on after it; CHK of a register that is not zero does nothing. -/
def Sys2Proof.Claims.UserTraps : Prop :=
  ∀ (s : State) (k : Nat) (st : StreamId) (a : Reg) (n : BitVec 12), Acts s k st [a] → Interruptible s k →
    let raised (i : Instr) (cause : Nat) (info : Word) : Prop :=
      ∃ t, exec i s = .next t ∧ (t.core k).priv = true ∧ (t.core k).trapcause = word (cause + 256 * st.num) ∧
        (t.core k).trapinfo = info ∧ (t.core k).trappc = packPos (s.pos k st).hdr (s.pos k st).off ∧
        (t.stream k st).pos = (s.stream k st).pos.after 2 ∧ (t.core k).hpos.hdr = (s.core k).trapvec.toNat % 2 ^ 57
    raised (.trap n) 0x17 (word n.toNat) ∧ raised (.bkpt n) 0x16 (word n.toNat) ∧
    (s.reg k st a = 0 → raised (.chk a n) 0x17 (word (n.toNat + 4096))) ∧
    (s.reg k st a ≠ 0 → exec (.chk a n) s = wentOn s k st)

/-- The lamp of a core's shaft, if the core holds it, is asked for by its twin and by calibration alone. -/
def Sys2Proof.Claims.OthersAsk (s : State) (k : Nat) : Prop :=
  s.holdsLamp k = true → ∀ j ∈ (s.shaft (shaftOf k)).reqs, j = twinOf k ∨ j = calRequest

/-- R366: RETT in the handler, its own accesses completed: with no trap held the core leaves privileged state and the streams stand
where they stood, and a core that is asked to stop gives up its waits and its lamp (R317, R372); with traps held it enters the handler
again for the first of C, T, A, H. Outside the handler RETT and HALT raise cause 0x04, and at another stream cause 0x02. -/
def Sys2Proof.Claims.TrapReturn : Prop :=
  ∀ (s : State) (k : Nat) (st : StreamId), s.turn = some (k, st) →
    ((s.core k).priv = true → st = .c → (s.stream k .c).accesses = [] → (s.core k).trapvec ≠ 0 → (s.core k).trapBad = false →
      ∃ t, exec .rett s = .next t ∧ ((s.core k).stop = false → OnlyCore k s t) ∧ SameMemory s t ∧
        (∀ x, (t.stream k x).regs = (s.stream k x).regs ∧ (t.stream k x).pos = (s.stream k x).pos ∧
          (t.stream k x).stack = (s.stream k x).stack) ∧
        ((∀ x, (s.stream k x).held = none) → (t.core k).priv = false ∧ (t.core k).trapcause = (s.core k).trapcause ∧
          ((s.core k).stop = true → s.clocked k = true → k < 2048 → OthersAsk s k → t.holdsLamp k = false ∧ ∀ x, (t.stream k x).wait = none)) ∧
        ∀ x r, (s.stream k x).held = some r → (∀ y, y.num < x.num → (s.stream k y).held = none) →
          (t.core k).priv = true ∧ (t.stream k x).held = none ∧ (t.core k).trapinfo = r.info ∧ (t.core k).trapseq = r.seq ∧
          (t.core k).trappc = packPos r.hdr r.off) ∧
    (st = .c → (s.core k).priv = false → exec .rett s = .next (s.raise k st 0x04 (instrWord .rett)) ∧
      exec .halt s = .next (s.raise k st 0x04 (instrWord .halt))) ∧
    (st ≠ .c → exec .rett s = .next (s.raise k st 0x02 (instrWord .rett)) ∧
      exec .halt s = .next (s.raise k st 0x02 (instrWord .halt)))

/-- R216, R369 and R372: HALT in the handler stops the core; once nothing of it is outstanding it is halted, and gives up its lamp where
it is asked to stop. A core of a failed crew halts
without its point once its streams stand at their stop units. -/
def Sys2Proof.Claims.CoreHalts : Prop :=
  ∀ (s : State) (k : Nat),
    (s.turn = some (k, .c) → (s.core k).priv = true → ∃ t, exec .halt s = .next t ∧ (t.core k).halting = true ∧
      (∀ x, t.runnable k x = false) ∧ OnlyCore k s t) ∧
    (s.clocked k = true → (s.core k).failed = false → (s.core k).halting = true → (s.core k).operationsDone = true → (s.core k).stop = false →
      exec (.haltComplete k) s = .next (s.setCore k { s.core k with halting := false, halted := true, priv := false })) ∧
    (s.clocked k = true → (s.core k).failed = false → (s.core k).halting = true → (s.core k).operationsDone = true → (s.core k).stop = true →
      k < 2048 → OthersAsk s k → ∃ t, exec (.haltComplete k) s = .next t ∧ (t.core k).halted = true ∧ (t.core k).halting = false ∧ (t.core k).priv = false ∧
        t.holdsLamp k = false ∧ SameMemory s t) ∧
    ((s.core k).failed = false → (s.core k).halting = true → (s.core k).operationsDone = false →
      exec (.haltComplete k) s = .next s) ∧
    (s.clocked k = true → (s.core k).failed = true → (s.core k).acknowledged = true → ∃ t, exec (.haltComplete k) s = .next t ∧
      (t.core k).halted = true ∧ (t.core k).failed = false ∧ (t.core k).point = none ∧ (t.core k).priv = false) ∧
    ((s.core k).failed = true → (s.core k).acknowledged = false → exec (.haltComplete k) s = .next s)

/-- R329 and R369: a cause raised by the handler's own stream is a double fault, and so are a trap whose handler address is 0 and one
whose entry meets an uncorrectable error, also the entry for a held trap at RETT: the core is halted and no longer privileged, the
rest of its crew is to halt at its stop units, and its record is FAULTED. (The record is that of the arming that fired the point,
log 82.) -/
def Sys2Proof.Claims.DoubleFault : Prop :=
  ∀ (s : State) (k : Nat) (cause : Nat) (info : Word) (p : Point), (s.core k).point = some p → k ∈ crewCores p.kind p.base →
    (s.record p.recNo).arming = p.arming →
    let fails (t : State) : Prop :=
      (t.core k).halted = true ∧ (t.core k).priv = false ∧ (t.core k).point = none ∧ (t.record p.recNo).state = .faulted ∧
        (∀ f ∈ (t.record p.recNo).points, f.serial ≠ p.serial) ∧
        ∀ j ∈ crewCores p.kind p.base, j ≠ k → (s.core j).halted = false → (t.core j).failed = true
    ((s.core k).priv = true → fails (s.raise k .c cause info)) ∧
    ((s.core k).raised.isSome → (s.core k).acknowledged = true → (s.core k).priv = false → (s.core k).stop = false →
      (s.core k).failed = false → s.clocked k = true → (s.core k).trapvec = 0 ∨ (s.core k).trapBad = true →
      ∃ t, exec (.trapEntry k) s = .next t ∧ fails t) ∧
    (s.turn = some (k, .c) → (s.core k).priv = true → (s.stream k .c).accesses = [] → (∃ x, (s.stream k x).held.isSome) →
      (s.core k).trapvec = 0 ∨ (s.core k).trapBad = true → ∃ t, exec .rett s = .next t ∧ fails t)

/-- R217: PACE writes %pace of its own stream and nothing else of it. -/
def Sys2Proof.Claims.PaceWrite : Prop :=
  ∀ (s : State) (k : Nat) (st : StreamId) (n : BitVec 12), s.turn = some (k, st) →
    exec (.pace n) s = .next ((s.setStream k st { s.stream k st with pace := n.setWidth 16 }).retire k st 2)

/-- R148, R218: BANK in the handler starts the switch of a bank that is not mid-switch and waits for it; when the bank has drained the
switch completes: the bank takes its mode and BANK retires. A bank already in the mode lets it retire at once. -/
def Sys2Proof.Claims.BankSwitch : Prop :=
  ∀ (s : State) (k : Nat) (m : BitVec 2) (b : BitVec 6), s.turn = some (k, .c) → (s.core k).priv = true →
    let cl := clusterOf k
    let c := s.cluster cl
    (s.stream k .c).wait = none → tfind c.bankBusy b.toNat = none → c.isShadow b.toNat = false →
    s.bankAhead cl b.toNat (s.arrival k .c (.bank b.toNat false)) = false →
    (tget 0 c.bankMode b.toNat = m.toNat → exec (.bank m b) s = .next (s.retire k .c 2)) ∧
    (tget 0 c.bankMode b.toNat ≠ m.toNat → c.bankRefused b.toNat m.toNat = false →
      ∃ t, exec (.bank m b) s = .next t ∧ tfind (t.cluster cl).bankBusy b.toNat = some m.toNat ∧
        (t.stream k .c).wait.isSome ∧ t.pos k .c = s.pos k .c) ∧
    (c.bankRefused b.toNat m.toNat = true → tget 0 c.bankMode b.toNat ≠ m.toNat →
      exec (.bank m b) s = .next (s.raise k .c 0x0B (word b.toNat)))

/-- R148, R218, R331: the event that ends a switch: the bank takes the mode it was given, empty, and is no longer mid-switch; the BANK
that waits for that switch retires, and the window whose switch it was is not busy any more. -/
def Sys2Proof.Claims.BankSwitchEnds : Prop :=
  ∀ (s : State) (cl b m : Nat), tfind (s.cluster cl).bankBusy b = some m → (s.cluster cl).drained b = true →
    (s.cluster cl).stopped = false → (∀ x ∈ s.pcbs, x.2.clWait = none) →
    ∃ t, exec (.bankSwitchDone cl b) s = .next t ∧ tget 0 (t.cluster cl).bankMode b = m ∧ tfind (t.cluster cl).bankBusy b = none ∧
      (∀ o, o / 524288 = b → tget 0 (t.cluster cl).scratch o = 0) ∧
      (∀ o, o / 524288 ≠ b → tget 0 (t.cluster cl).scratch o = tget 0 (s.cluster cl).scratch o) ∧
      t = { s with cores := t.cores, clusters := t.clusters, pcbs := t.pcbs } ∧
      (∀ p, t.pcb p = { s.pcb p with clDrain := if (s.pcb p).clDrain = some (cl, b) then none else (s.pcb p).clDrain }) ∧
      ∀ n k st, s.waiters = [(n, k, st, .bank b true)] → clusterOf k = cl →
        (t.stream k st).wait = none ∧ (t.stream k st).seq = (s.stream k st).seq + 1 ∧ t.pos k st = (s.pos k st).after 2

/-- R139 and R386: a watchdog that has counted out raises cause 0x15 at a core crew with the blocked streams in %trapinfo; a freeze stops
the core's streams until it ends. -/
def Sys2Proof.Claims.StallEvents : Prop :=
  ∀ (s : State) (k : Nat) (p : Point), (s.core k).point = some p →
    (Interruptible s k → p.kind = 0 → p.base = k → s.watchdogCounts k = true →
      ∃ t, exec (.watchdogExpiry k) s = .next t ∧ (t.core k).priv = true ∧ (t.core k).trapcause = 0x15 ∧
        (t.core k).trapinfo = word (s.core k).blockedBits) ∧
    (∃ t, exec (.eccFreeze k) s = .next t ∧ (∀ x, t.runnable k x = false) ∧ OnlyCore k s t ∧
      ∀ x, t.stream k x = s.stream k x) ∧
    exec (.eccFreezeEnd k) s = .next (s.setCore k { s.core k with frozen := false })

/-! ### Numbers -/

namespace Sys2Proof.Claims

/-- The value is the finite real number X. -/
def IsReal (x : Val) (X : ℝ) : Prop := ∃ s m e, x = .fin s m e ∧ X = (if s then -1 else 1) * (m : ℝ) * (2 : ℝ) ^ e

/-- Two values are the same number, infinity or NaN, zeros with their signs. -/
def SameVal (x y : Val) : Prop :=
  x.neg = y.neg ∧ (x.isNan = true ∧ y.isNan = true ∨ x.isInf = true ∧ y.isInf = true ∨ ∃ X, IsReal x X ∧ IsReal y X)

/-- Fraction bits, exponent bits and bias of the floating-point formats (R28 to R31); 8 stands for the accumulators' FP64. -/
def floatShape (f : Nat) : Nat × Nat × Int :=
  match f with
  | 0 => (23, 8, 127)
  | 1 => (7, 8, 127)
  | 2 => (3, 4, 7)
  | 3 => (1, 2, 1)
  | _ => (52, 11, 1023)

/-- Bits of a code of a format (R27, R28). -/
def codeBits (f : Nat) : Nat :=
  match f with
  | 0 => 32 | 1 => 16 | 2 => 8 | 3 => 4 | 4 => 8 | 5 => 32 | 6 => 16 | _ => 64

/-- Numeric formats: FP32, BF16, E4M3, E2M1, INT8, INT32, ADC16 and FP64. -/
def numeric : List Nat := [0, 1, 2, 3, 4, 5, 6, 8]

/-- Formats that are integers. -/
def integers : List Nat := [4, 5, 6]

/-- Least and greatest of the formats whose range test precedes rounding (R37). -/
def rangeOf (f : Nat) : Int × Int :=
  match f with
  | 2 => (-448, 448)
  | 3 => (-6, 6)
  | 4 => (-128, 127)
  | 5 => (-2147483648, 2147483647)
  | _ => (-511, 511)

/-- The code of the canonical NaN of a sign (R35). -/
def canonical (f : Nat) (neg : Bool) : Nat :=
  match f with
  | 0 => if neg then 0xFFC00000 else 0x7FC00000
  | 1 => if neg then 0xFFC0 else 0x7FC0
  | 2 => if neg then 0xFF else 0x7F
  | 8 => if neg then 0xFFF8000000000000 else 0x7FF8000000000000
  | _ => 0

/-- R36 within a format's range: the code is the one of a value of the format that the mode takes for X, toward zero never one of the
other sign; a zero has X's sign. -/
def Nearest (f mode : Nat) (neg : Bool) (X : ℝ) (c : Nat) : Prop :=
  ∃ V, IsReal (codeVal f c) V ∧ (f ∉ integers → (codeVal f c).neg = neg) ∧
    (mode = 0 → ∀ d W, d < 2 ^ codeBits f → IsReal (codeVal f d) W → |V - X| ≤ |W - X| ∧ (|V - X| = |W - X| → V ≠ W → c % 2 = 0)) ∧
    (mode = 1 → |V| ≤ |X| ∧ 0 ≤ V * X ∧ ∀ d W, d < 2 ^ codeBits f → IsReal (codeVal f d) W → |W| ≤ |X| → |W| ≤ |V|) ∧
    (mode = 2 → X ≤ V ∧ ∀ d W, d < 2 ^ codeBits f → IsReal (codeVal f d) W → X ≤ W → V ≤ W) ∧
    (mode = 3 → V ≤ X ∧ ∀ d W, d < 2 ^ codeBits f → IsReal (codeVal f d) W → W ≤ X → W ≤ V)

/-- R37: X overflows a binary format of IEEE 754: rounded with an unbounded exponent range it lies above the largest finite value,
`top` less `step`. -/
def overflows (mode : Nat) (top step X : ℝ) : Prop :=
  match mode with
  | 0 => top - step / 2 ≤ |X|
  | 1 => top ≤ |X|
  | 2 => top - step < X ∨ X ≤ -top
  | _ => X < -(top - step) ∨ top ≤ X

/-- R36 and R37: the code and the status that a finite real number is rounded to, by mode 0 RNE, 1 RZ, 2 RU or 3 RD; `neg` is the sign,
which a zero has too. -/
def Rounds (f mode : Nat) (sat neg : Bool) (X : ℝ) (r : Nat × Status) : Prop :=
  r.1 < 2 ^ codeBits f ∧
  if f ∈ [0, 1, 8] then
    let top : ℝ := if f = 8 then 2 ^ 1024 else 2 ^ 128
    let step : ℝ := if f = 8 then 2 ^ 971 else if f = 0 then 2 ^ 104 else 2 ^ 120
    let away := mode = 0 ∨ (mode = 2 ∧ neg = false) ∨ (mode = 3 ∧ neg = true)
    (overflows mode top step X → r.2 = { ov := true } ∧ (away → codeVal f r.1 = .inf neg) ∧
      (¬ away → IsReal (codeVal f r.1) ((if neg then -1 else 1) * (top - step)))) ∧
    (¬ overflows mode top step X → r.2 = {} ∧ Nearest f mode neg X r.1)
  else
    let lo : ℝ := (rangeOf f).1
    let hi : ℝ := (rangeOf f).2
    (f = 2 ∧ sat = false → (X < lo ∨ hi < X) → r = (canonical 2 neg, { ov := true })) ∧
    (¬ (f = 2 ∧ sat = false) → (hi < X → IsReal (codeVal f r.1) hi ∧ r.2 = { sat := true }) ∧
      (X < lo → IsReal (codeVal f r.1) lo ∧ r.2 = { sat := true })) ∧
    (lo ≤ X → X ≤ hi → Nearest f mode neg X r.1 ∧ (f ∈ integers → r.2 = {}) ∧
      (f ∉ integers → (X ≠ 0 ∧ IsReal (codeVal f r.1) 0 → r.2 = { fz := true }) ∧ (X = 0 ∨ ¬ IsReal (codeVal f r.1) 0 → r.2 = {})))

/-- R27 to R33: what every code of every numeric format stands for. -/
def CodeValues : Prop :=
  ∀ (f c : Nat), f ∈ numeric → c < 2 ^ codeBits f →
    let q := floatShape f
    let frac := c % 2 ^ q.1
    let ex := c / 2 ^ q.1 % 2 ^ q.2.1
    let neg : Bool := c / 2 ^ (q.1 + q.2.1) == 1
    if f ∈ integers then IsReal (codeVal f c) ((BitVec.ofNat (codeBits f) c).toInt : ℝ)
    else if f ∈ [0, 1, 8] ∧ ex = 2 ^ q.2.1 - 1 then codeVal f c = if frac = 0 then .inf neg else .nan neg
    else if f = 2 ∧ ex = 15 ∧ frac = 7 then codeVal f c = .nan neg
    else (codeVal f c).neg = neg ∧ IsReal (codeVal f c) ((if neg then -1 else 1) *
      (if ex = 0 then (frac : ℝ) * 2 ^ (1 - q.2.2 - (q.1 : Int)) else (1 + (frac : ℝ) / 2 ^ q.1) * 2 ^ ((ex : Int) - q.2.2)))

/-- R32, R34, R39 and R40: an element with its scale code is its code's value times 2^(scale - 127), a NaN under scale code 255, which a
numeric read meets with NV; to_fp32 takes it, and an INT32, to FP32 by RNE, with OV where a scaled element overflows. -/
def ScaledReads : Prop :=
  ∀ (f c z : Nat), f ∈ [0, 1, 2, 3, 4, 5, 6] → c < 2 ^ codeBits f → z < 256 →
    let block := f = 2 ∨ f = 3
    (block → z = 255 → scaledVal f c z = .nan false ∧ toFp32 f c z = (.nan false, { nv := true })) ∧
    (block → z ≠ 255 → ∀ X, IsReal (codeVal f c) X →
      IsReal (scaledVal f c z) (X * 2 ^ ((z : Int) - 127)) ∧ (scaledVal f c z).neg = (codeVal f c).neg) ∧
    (¬ block → scaledVal f c z = codeVal f c) ∧
    (¬ (block ∧ z = 255) → ∀ X, IsReal (scaledVal f c z) X →
      ∃ r, Rounds 0 0 true (codeVal f c).neg X r ∧ SameVal (toFp32 f c z).1 (codeVal 0 r.1) ∧
        (toFp32 f c z).2 = { ov := r.2.ov && (f == 2 || f == 3) }) ∧
    (z ≠ 255 → ∀ s, codeVal f c = .nan s → toFp32 f c z = (.nan s, {})) ∧
    ∀ s, codeVal f c = .inf s → toFp32 f c z = (.inf s, {})

/-- R35 to R37: the rounding of a value to a format. A NaN gives the canonical NaN of its sign with NV, an infinity its own or the end of
the range with SAT. -/
def Rounding : Prop :=
  ∀ (f mode : Nat) (sat : Bool), f ∈ numeric → mode < 4 →
    (∀ x X, IsReal x X → Rounds f mode sat x.neg X (roundTo f mode sat x)) ∧
    (∀ s, roundTo f mode sat (.nan s) = (canonical f s, { nv := true })) ∧
    ∀ s, let r := roundTo f mode sat (.inf s)
      (f ∈ [0, 1, 8] → codeVal f r.1 = .inf s ∧ r.2 = {}) ∧
      (f = 2 → sat = false → r = (canonical 2 s, { ov := true })) ∧
      (f ∉ [0, 1, 8] → ¬ (f = 2 ∧ sat = false) →
        IsReal (codeVal f r.1) (if s then ((rangeOf f).1 : ℝ) else ((rangeOf f).2 : ℝ)) ∧ r.2 = { sat := true })

/-- A value that is the canonical NaN of R35, with NV raised. -/
def isInvalid (r : Val × Status) : Prop := r = (.nan false, { nv := true })

/-- R35, R38, R39, R226 and R227: exact sums and products of finite values, with the sign IEEE 754 gives a zero, and the special values. -/
def SumsAndProducts : Prop :=
  ∀ (mode : Nat) (x y : Val), mode < 4 →
    (x.isNan = true ∨ y.isNan = true → isInvalid (valAdd mode x y) ∧ isInvalid (valMul x y)) ∧
    (∀ X Y, IsReal x X → IsReal y Y →
      ((valAdd mode x y).2 = {} ∧ IsReal (valAdd mode x y).1 (X + Y) ∧
        (X + Y = 0 → (valAdd mode x y).1.neg = if x.neg = y.neg then x.neg else decide (mode = 3))) ∧
      (valMul x y).2 = {} ∧ IsReal (valMul x y).1 (X * Y) ∧ (valMul x y).1.neg = (x.neg != y.neg)) ∧
    (∀ s, x = .inf s →
      (y.isNan = false → y ≠ .inf (!s) → valAdd mode x y = (.inf s, {}) ∧ valAdd mode y x = (.inf s, {})) ∧
      (y = .inf (!s) → isInvalid (valAdd mode x y)) ∧
      (y.isZero = true → isInvalid (valMul x y) ∧ isInvalid (valMul y x)) ∧
      (y.isNan = false → y.isZero = false → valMul x y = (.inf (s != y.neg), {}) ∧ valMul y x = (.inf (s != y.neg), {})))

/-- R226 and R228: order. TCLT's and TCEQ's comparisons take zeros as equal; TMAX and TMIN put -0 below +0, and answer one of their
operands, or for a NaN the canonical one with NV. -/
def Comparisons : Prop :=
  ∀ (x y : Val),
    (∀ X Y, IsReal x X → IsReal y Y →
      (valLt x y = true ↔ X < Y) ∧ (valEq x y = true ↔ X = Y) ∧
      (valMax x y).2 = {} ∧ IsReal (valMax x y).1 (max X Y) ∧ (X = 0 → Y = 0 → (valMax x y).1.neg = (x.neg && y.neg)) ∧
      (valMin x y).2 = {} ∧ IsReal (valMin x y).1 (min X Y) ∧ (X = 0 → Y = 0 → (valMin x y).1.neg = (x.neg || y.neg))) ∧
    (x.isNan = true ∨ y.isNan = true → isInvalid (valMax x y) ∧ isInvalid (valMin x y) ∧ valLt x y = false ∧ valEq x y = false) ∧
    (y.isNan = false →
      valMax (.inf true) y = (y, {}) ∧ (valMin (.inf false) y) = (y, {}) ∧ valMax (.inf false) y = (.inf false, {}) ∧
      valMin (.inf true) y = (.inf true, {}) ∧ (valLt (.inf true) y = true ↔ y ≠ .inf true) ∧ (valLt y (.inf false) = true ↔ y ≠ .inf false) ∧
      valLt (.inf false) y = false ∧ valLt y (.inf true) = false)

/-- R46, R47 and R228: a sum formed exactly over a list: a zero is +0, unless every term is -0. -/
def ExactSums : Prop :=
  ∀ (l : List Val) (xs : List ℝ),
    (List.Forall₂ IsReal l xs → (valSum l).2 = {} ∧ IsReal (valSum l).1 xs.sum ∧
      (xs.sum = 0 → ((valSum l).1.neg = true ↔ l ≠ [] ∧ ∀ x ∈ l, x.neg = true))) ∧
    ((∃ x ∈ l, x.isNan = true) ∨ (.inf true ∈ l ∧ .inf false ∈ l) → isInvalid (valSum l)) ∧
    ∀ s, .inf s ∈ l → .inf (!s) ∉ l → (∀ x ∈ l, x.isNan = false) → valSum l = (.inf s, {})

/-- A function's answer is the code and status of one RNE rounding to FP32 of a real number with a sign. -/
def RoundsToFp32 (r : Val × Status) (neg : Bool) (X : ℝ) : Prop := ∃ q, Rounds 0 0 true neg X q ∧ SameVal r.1 (codeVal 0 q.1) ∧ r.2 = q.2

/-- R42: the special operands of the nine functions: the answers at -inf, -0, +0 and +inf, each with its status. -/
def SpecialOperands : Prop :=
  let one : Val := .fin false 1 0
  let half : Val := .fin false 1 (-1)
  let zero (s : Bool) : Val := .fin s 0 0
  let bad : Val × Status := (.nan false, { nv := true })
  let gives (f : Val → Val × Status) (a b c d : Val × Status) : Prop :=
    let same (x : Val) (r : Val × Status) : Prop := SameVal (f x).1 r.1 ∧ (f x).2 = r.2
    same (.inf true) a ∧ (∀ e, same (.fin true 0 e) b ∧ same (.fin false 0 e) c) ∧ same (.inf false) d ∧ ∀ s, same (.nan s) bad
  gives fexp2 (zero false, {}) (one, {}) (one, {}) (.inf false, {}) ∧
  gives flog2 bad (.inf true, {}) (.inf true, {}) (.inf false, {}) ∧
  gives frcp (zero true, {}) (.inf true, {}) (.inf false, {}) (zero false, {}) ∧
  gives frsq bad (.inf true, {}) (.inf false, {}) (zero false, {}) ∧
  gives fsqrt bad (zero true, {}) (zero false, {}) (.inf false, {}) ∧
  gives fsig (zero false, {}) (half, {}) (half, {}) (one, {}) ∧
  gives ftanh (.fin true 1 0, {}) (zero true, {}) (zero false, {}) (one, {}) ∧
  gives fsilu (zero true, {}) (zero true, {}) (zero false, {}) (.inf false, {}) ∧
  gives fgelu (zero true, {}) (zero true, {}) (zero false, {}) (.inf false, {}) ∧
  ∀ x X, IsReal x X →
    (X < 0 → flog2 x = bad ∧ frsq x = bad ∧ fsqrt x = bad) ∧ (128 ≤ X → fexp2 x = (.inf false, { ov := true })) ∧
    (X = 1 → SameVal (flog2 x).1 (zero false) ∧ (flog2 x).2 = {})

/-- R41: the algebraic functions of every FP32 operand, and the others where their exact value is a power of two or an integer. -/
def AlgebraicFunctions : Prop :=
  ∀ (c : Nat) (X : ℝ), c < 2 ^ 32 → IsReal (codeVal 0 c) X →
    let x := codeVal 0 c
    (X ≠ 0 → RoundsToFp32 (frcp x) x.neg (1 / X)) ∧
    (0 < X → RoundsToFp32 (fsqrt x) false (Real.sqrt X) ∧ RoundsToFp32 (frsq x) false (1 / Real.sqrt X)) ∧
    (∀ n : Int, X = n → n < 128 → RoundsToFp32 (fexp2 x) false (2 ^ n)) ∧
    ∀ n : Int, X = 2 ^ n → RoundsToFp32 (flog2 x) (decide (n < 0)) n

/-- R43: stochastic rounding of a finite FP32 value that BF16, E4M3 or E2M1 does not represent: with lsb = 2^q the weight of the last bit
of the truncated value, m is the truncated magnitude over lsb, one more where the k bits below it and the random bits carry out. -/
def StochasticRounding : Prop :=
  ∀ (f c rnd tsrb : Nat) (X : ℝ), f ∈ [1, 2, 3] → c < 2 ^ 32 → IsReal (codeVal 0 c) X →
    (∀ d, ¬ IsReal (codeVal f d) X) →
    let p := floatShape f
    let own : Int := max 1 ((c / 2 ^ 23 % 256 : Nat) : Int) - 150
    ∃ (q : Int) (t d b : Nat),
      (q = 1 - p.2.2 - p.1 ∧ |X| < 2 ^ (q + (p.1 : Int) + 1) ∨
        1 - p.2.2 - (p.1 : Int) < q ∧ 2 ^ (q + (p.1 : Int)) ≤ |X| ∧ |X| < 2 ^ (q + (p.1 : Int) + 1)) ∧
      (t : ℝ) * 2 ^ q ≤ |X| ∧ |X| < (t + 1) * 2 ^ q ∧ (d : Int) = min 32 (q - own) ∧
      (b : ℝ) ≤ (|X| / 2 ^ q - t) * 2 ^ d ∧ (|X| / 2 ^ q - t) * 2 ^ d < b + 1 ∧
      let k := min d tsrb
      let m := if 2 ^ k ≤ b / 2 ^ (d - k) + rnd % 2 ^ k then t + 1 else t
      let r := stochastic f (codeVal 0 c) rnd tsrb
      let V : ℝ := (if (codeVal 0 c).neg then -1 else 1) * (m : ℝ) * 2 ^ q
      r.1 < 2 ^ codeBits f ∧
      (f ≠ 1 → |V| ≤ (rangeOf f).2 → IsReal (codeVal f r.1) V ∧ (codeVal f r.1).neg = (codeVal 0 c).neg ∧ r.2 = { fz := m == 0 }) ∧
      (f ≠ 1 → (rangeOf f).2 < |V| → IsReal (codeVal f r.1) (if (codeVal 0 c).neg then ((rangeOf f).1 : ℝ) else ((rangeOf f).2 : ℝ)) ∧
        r.2 = { sat := true }) ∧
      (f = 1 → |V| < 2 ^ 128 → IsReal (codeVal f r.1) V ∧ (codeVal f r.1).neg = (codeVal 0 c).neg ∧ r.2 = {}) ∧
      (f = 1 → 2 ^ 128 ≤ |V| → codeVal f r.1 = .inf (codeVal 0 c).neg ∧ r.2 = { ov := true })

end Sys2Proof.Claims

/-- R28 to R40 and R43: what codes stand for, scaled reads, and every rounding. A stochastic round-up of a BF16 past its largest finite value
is an infinity with OV by the model's choice (log 63). -/
def Obligations.Numbers : Prop :=
  Claims.CodeValues ∧ Claims.ScaledReads ∧ Claims.Rounding ∧ Claims.StochasticRounding ∧ ∀ x X, IsReal x X → X = (x.rat : ℝ)

/-- R38, R41, R42, R46, R47, R226 and R228: exact sums, products and comparisons, the special operands of the functions, and the correctly
rounded algebraic ones. -/
def Obligations.Arithmetic : Prop :=
  Claims.SumsAndProducts ∧ Claims.Comparisons ∧ Claims.ExactSums ∧ Claims.SpecialOperands ∧ Claims.AlgebraicFunctions

/-- R41: each function of every FP32 operand in its domain is the exact mathematical value rounded once, by RNE, to FP32. -/
def Obligations.RealFunctions : Prop :=
  ∀ (c : Nat) (X : ℝ), c < 2 ^ 32 → IsReal (codeVal 0 c) X →
    let x := codeVal 0 c
    let sig (Y : ℝ) : ℝ := 1 / (1 + Real.exp (-Y))
    RoundsToFp32 (fexp2 x) false ((2 : ℝ) ^ X) ∧
    (0 < X → RoundsToFp32 (flog2 x) (decide (X < 1)) (Real.logb 2 X) ∧ RoundsToFp32 (fsqrt x) false (Real.sqrt X) ∧
      RoundsToFp32 (frsq x) false (1 / Real.sqrt X)) ∧
    (X ≠ 0 → RoundsToFp32 (frcp x) x.neg (1 / X)) ∧
    RoundsToFp32 (fsig x) false (sig X) ∧ RoundsToFp32 (ftanh x) x.neg (Real.tanh X) ∧ RoundsToFp32 (fsilu x) x.neg (X * sig X) ∧
    RoundsToFp32 (fgelu x) x.neg (0.5 * X * (1 + Real.tanh (Real.sqrt (2 / Real.pi) * (X + 0.044715 * X ^ 3))))

/-! ### The vector unit -/

namespace Sys2Proof.Claims

/-- What the formats and shapes of R220 to R241 ask of the tiles and scalars of a vector-unit instruction that claims tiles
(format 0 FP32, 1 BF16, 2 E4M3, 3 E2M1, 5 INT32, 7 RAW32); x and y are the scalar operands. -/
def Passes (c : Core) (i : Instr) (x y : Word) : Prop :=
  let T (o : BitVec 8) := c.tile (o.toNat / 8)
  let view (o : BitVec 8) := TileField.view o
  let fit (a d : BitVec 8) := (T a).fits (view a) (T d) = true
  let number (a : BitVec 8) := (T a).fmt ≠ 7
  let alike (a d : BitVec 8) := (T a).fmt = 7 ↔ (T d).fmt = 7
  match i with
  | .tadd d a b | .tsub d a b | .tmul d a b | .tfma d a b | .tmax d a b | .tmin d a b | .tclt d a b | .tceq d a b | .tsel d a b =>
    number d ∧ number a ∧ number b ∧ fit a d ∧ fit b d
  | .tsrnd d a b =>
    ((T d).fmt = 1 ∨ (T d).fmt = 2 ∨ (T d).fmt = 3) ∧ number a ∧ ((T b).fmt = 7 ∨ (T b).fmt = 5) ∧ fit a d ∧ fit b d
  | .tneg d a | .tabs d a | .texp2 d a | .tlog2 d a | .trcp d a | .trsq d a | .tsqrt d a | .tsig d a | .ttanh d a | .tsilu d a
  | .tgelu d a | .tscal d a _ | .tadds d a _ | .tclamp d a _ => number d ∧ number a ∧ fit a d
  | .tmov d a => alike a d ∧ fit a d
  | .trsum d a | .trmax d a => number d ∧ number a ∧ (T d).rows = ((T a).shape (view a)).1
  | .tcsum d a | .tcmax d a => number d ∧ number a ∧ (T d).cols = ((T a).shape (view a)).2
  | .trowx d a _ => number d ∧ number a ∧ (T d).cols = ((T a).shape (view a)).2 ∧ x.toNat < ((T a).shape (view a)).1
  | .trowi d a _ => number d ∧ number a ∧ (T d).cols = ((T a).shape (view a)).2 ∧ x.toNat < (T d).rows
  | .tcvt d a _ _ t => (T d).fmt = t.toNat ∧ t ≠ 7 ∧ number a ∧ fit a d
  | .tqnt d a t => (T d).fmt = 2 + t.toNat ∧ number a ∧ fit a d
  | .tdqnt d a _ t => (T d).fmt = t.toNat ∧ t ≠ 7 ∧ ((T a).fmt = 2 ∨ (T a).fmt = 3) ∧ fit a d
  | .ttrl d a => (T d).fmt = 7 ∧ (T d).rows = (T a).rows ∧ (T d).cols = 4 ∧ view a = 0
  | .tfill _ _ => True
  | .tiota _ => True
  | .trand d => (T d).fmt = 7 ∨ (T d).fmt = 5
  | .tset d _ _ => y.toNat / 2 ^ 16 % 2 ^ 16 < (T d).rows ∧ y.toNat % 2 ^ 16 < (T d).cols
  | .tget d _ _ => y.toNat / 2 ^ 16 % 2 ^ 16 < (T d).rows ∧ y.toNat % 2 ^ 16 < (T d).cols
  | .tstats _ _ => x.toNat < 1024
  | _ => False

/-- The claims of a vector-unit instruction, one for each tile it names. -/
def vecClaims (i : Instr) : List Use := mergeUses (vecForm i).uses

/-- A vector-unit instruction issues at the T stream: it is the stream's turn, no instruction that has issued before waits there, no
register of it is pending, and every tile is in the core's set (R61, R220). -/
def VectorIssues (s : State) (k : Nat) (i : Instr) : Prop :=
  s.turn = some (k, .t) ∧ (∀ o n, (s.stream k .t).wait ≠ some (.claim o, n)) ∧ s.anyPending k .t (vecRegs i) = false ∧
    ∀ u ∈ (vecForm i).uses, u.tile < (s.core k).ntiles

/-- The vector unit can take the instruction: it issues, the unit is free, and every tile stands as R62 asks. -/
def VectorReady (s : State) (k : Nat) (i : Instr) : Prop :=
  VectorIssues s k i ∧ (s.core k).vec = none ∧ (s.core k).accepts (vecClaims i) = true

/-- What an instruction takes along from its issue: its scalar operands, %tround and %tsrb (R223, R227, R239). -/
def issuedOp (s : State) (k : Nat) (i : Instr) : VecOp :=
  ⟨i, s.reg k .t ((vecRegs i).headD 0), s.reg k .t ((vecRegs i).getD 1 0), (s.core k).tround, (s.core k).tsrb⟩

/-- The instructions that complete where they claim (R238, R241). -/
def atOnce (i : Instr) : Prop :=
  match i with
  | .tset _ _ _ => True
  | .tget _ _ _ => True
  | .tstats _ _ => True
  | _ => False

/-- R38: a tile's four status bits are what they were, joined with those of every status raised. -/
def Gathers (old new : Tile) (raised : Status → Prop) : Prop :=
  (new.ov = true ↔ old.ov = true ∨ ∃ x, raised x ∧ x.ov = true) ∧ (new.nv = true ↔ old.nv = true ∨ ∃ x, raised x ∧ x.nv = true) ∧
  (new.sat = true ↔ old.sat = true ∨ ∃ x, raised x ∧ x.sat = true) ∧ (new.fz = true ↔ old.fz = true ∨ ∃ x, raised x ∧ x.fz = true)

/-- A descriptor within R59, and data in canonical form. -/
def LegalTile (t : Tile) : Prop := t.rows ≤ 128 ∧ t.cols ≤ 128 ∧ t.cols * fmtBits t.fmt ≤ 2048 ∧ t.fmt < 8 ∧ Memory.wf t.data

/-- The instructions of R226, R227 and R230 that compute each element from those at its place, with the value each gives: the sources
in order, the old destination and the scalar. That a NaN bound of TCLAMP raises no NV is the model's reading (log 63). -/
def elementwise (mode : Nat) (i : Instr) (x : Val) (a b old : Val) : Option (Val × Status) :=
  match i with
  | .tadd _ _ _ => some (toF32 mode (valAdd mode a b))
  | .tsub _ _ _ => some (toF32 mode (valAdd mode a b.flip))
  | .tmul _ _ _ => some (toF32 mode (valMul a b))
  | .tmax _ _ _ => some (valMax a b)
  | .tmin _ _ _ => some (valMin a b)
  | .tfma _ _ _ => some (toF32 mode (valAdd mode (valMul a b).1 old))
  | .tsel _ _ _ => some (if old.isZero then b else a, {})
  | .tclt _ _ _ => some (if a.isNan || b.isNan then (.zero, { nv := true }) else (if valLt a b then .fin false 1 0 else .zero, {}))
  | .tceq _ _ _ => some (if a.isNan || b.isNan then (.zero, { nv := true }) else (if valEq a b then .fin false 1 0 else .zero, {}))
  | .tclamp _ _ _ => some (if a.isNan then invalid else if x.isNan then (a, {})
      else if valLt x.abs a then (x.abs, { sat := true }) else if valLt a x.abs.flip then (x.abs.flip, { sat := true }) else (a, {}))
  | .tneg _ _ => some (if a.isNan then invalid else (a.flip, {}))
  | .tabs _ _ => some (if a.isNan then invalid else (a.abs, {}))
  | .tscal _ _ _ => some (toF32 mode (valMul a x))
  | .tadds _ _ _ => some (toF32 mode (valAdd mode a x))
  | .texp2 _ _ => some (fexp2 a)
  | .tlog2 _ _ => some (flog2 a)
  | .trcp _ _ => some (frcp a)
  | .trsq _ _ => some (frsq a)
  | .tsqrt _ _ => some (fsqrt a)
  | .tsig _ _ => some (fsig a)
  | .ttanh _ _ => some (ftanh a)
  | .tsilu _ _ => some (fsilu a)
  | .tgelu _ _ => some (fgelu a)
  | _ => none

end Sys2Proof.Claims

/-- R62, R220, R221 and R225: a vector-unit instruction that the unit can take, and whose formats and shapes are as its rule asks,
claims its tiles in one step and goes to the unit with its operands and rounding as they stand at issue; while the unit is busy or
a tile does not stand as R62 asks it waits; a tile at or above the tile count raises cause 0x05. -/
def Sys2Proof.Claims.TileIssue : Prop :=
  ∀ (s : State) (k : Nat) (i : Instr),
    let c := s.core k
    let o := issuedOp s k i
    Passes c i o.s1 o.s2 →
    (VectorReady s k i → ¬ atOnce i →
      exec i s = .next ((s.setCore k { c.claim (vecClaims i) with vec := some o }).retire k .t 2)) ∧
    (VectorIssues s k i → c.vec ≠ none ∨ c.accepts (vecClaims i) = false → exec i s = .next (s.waitOn k .t (.claim o))) ∧
    (s.turn = some (k, .t) → (∀ p n, (s.stream k .t).wait ≠ some (.claim p, n)) → s.anyPending k .t (vecRegs i) = false →
      ∀ u l, (vecForm i).uses = u :: l → c.ntiles ≤ u.tile →
      exec i s = .next (s.raise k .t 0x05 (word (u.tile + 256 * c.ntiles))))

/-- R62, R63, R220: an instruction that waits at the T stream claims once its tiles stand as R62 asks, from its turn or by the event of
the claim, with the operands, the rounding and the range of its issue. -/
def Sys2Proof.Claims.TileRetry : Prop :=
  ∀ (s : State) (k n : Nat) (o : VecOp) (e : Instr), (s.stream k .t).wait = some (.claim o, n) →
    (e = o.instr ∧ s.turn = some (k, .t) ∨ e = .vectorClaim k ∧ s.runnable k .t = true) →
    let c := s.core k
    Passes c o.instr o.s1 o.s2 → c.vec = none → c.accepts (vecClaims o.instr) = true → ¬ atOnce o.instr →
    exec e s = .next ((s.setCore k { c.claim (vecClaims o.instr) with vec := some o }).retire k .t 2)

/-- R62 to R64: a claim that was accepted and is released leaves its tiles unclaimed as before: a destination full, a consumed source
empty, any other source as it was; no data and no other tile changes. -/
def Sys2Proof.Claims.TileClaims : Prop :=
  ∀ (c : Core) (us : List Use), (us.map fun u => u.tile).Nodup → c.accepts us = true →
    let d := (c.claim us).release us
    (∀ u ∈ us, (c.tile u.tile).override = none →
      d.tile u.tile = { c.tile u.tile with full := if u.dst then true else if u.cons then false else (c.tile u.tile).full }) ∧
    (∀ u ∈ us, ((c.claim us).tile u.tile).claimed = true ∧ (u.dst = true → (c.tile u.tile).claimed = false ∧
      (c.tile u.tile).full = (u.src || u.keep)) ∧ (u.dst = false → (c.tile u.tile).full = true ∧ (c.tile u.tile).writing = false)) ∧
    ∀ n, n ∉ us.map (fun u => u.tile) → d.tile n = c.tile n

/-- R64, R221, R237: the vector unit completes a TDESC on a tile that no claim holds: the tile has its new descriptor and its status
cleared, FULL and the data as they were. While another unit's claim holds it, TDESC waits in the vector unit (log 94). -/
def Sys2Proof.Claims.TileDescribed : Prop :=
  ∀ (s : State) (k : Nat) (o : VecOp) (d : BitVec 8) (a b : Reg) (f : BitVec 3), (s.core k).vec = some o → o.instr = .tdesc d a b f →
    let c := s.core k
    let n := d.toNat / 8
    ((c.tile n).claimed = true → exec (.vectorComplete k) s = .next s) ∧
    ((c.tile n).claimed = false → s.clocked k = true → c.raised = none → n < c.ntiles →
      exec (.vectorComplete k) s = .next (s.setCore k { c.setTile n { c.tile n with
        fmt := f.toNat, rows1 := o.s1.toNat - 1, cols1 := o.s2.toNat - 1, ov := false, nv := false, sat := false, fz := false } with vec := none }))

/-- R238, R241, R237, R240 and R64: what completes where it issues: TGET, TSET and TSTATS; TEMPTY, TFULL and TEMPTY_16, on a claimed tile
in place of what the release would set; TDRD and TSEED. TDESC on an unclaimed tile retires and stands in the vector unit, which gives the
tile its descriptor (log 94: that the stream goes on before). A count of merges stops at 2^32 - 1. (TSTATS merges into the table of the
arming that fired the point, log 82.) -/
def Obligations.TileImmediates : Prop :=
  Claims.TileDescribed ∧
  ∀ (s : State) (k : Nat) (d : BitVec 8) (t : BitVec 5) (a b : Reg) (f : BitVec 3), Acts s k .t [a, b] → (s.core k).vec = none →
    (∀ o n, (s.stream k .t).wait ≠ some (.claim o, n)) →
    let n := d.toNat / 8
    let c := s.core k
    let x := s.reg k .t a
    let y := s.reg k .t b
    (VectorReady s k (.tget d a b) → Passes c (.tget d a b) x y → ∃ u, exec (.tget d a b) s = .next u ∧
      (a ≠ 0 → u.reg k .t a = word ((c.tile n).code (y.toNat / 2 ^ 16 % 2 ^ 16) (y.toNat % 2 ^ 16))) ∧
      (∀ r, r ≠ a → u.reg k .t r = s.reg k .t r) ∧ u.pos k .t = (s.pos k .t).after 2) ∧
    (VectorReady s k (.tset d a b) → Passes c (.tset d a b) x y → LegalTile (c.tile n) → ∃ u, exec (.tset d a b) s = .next u ∧
      ((u.core k).tile n).code (y.toNat / 2 ^ 16 % 2 ^ 16) (y.toNat % 2 ^ 16) = x.toNat % 2 ^ fmtBits (c.tile n).fmt ∧
      (∀ m, m ≠ n → (u.core k).tile m = c.tile m) ∧ u.pos k .t = (s.pos k .t).after 2 ∧ SameMemory s u) ∧
    (∀ p, VectorReady s k (.tstats d a) → x.toNat < 1024 → c.point = some p → (s.record p.recNo).arming = p.arming → ∃ u, exec (.tstats d a) s = .next u ∧
      (let z : Stat := ⟨false, false, false, false, 0, 0⟩
      let old := tget z (s.record p.recNo).stats x.toNat
      let w := tget z (u.record p.recNo).stats x.toNat
      w.ov = (old.ov || (c.tile n).ov) ∧ w.nv = (old.nv || (c.tile n).nv) ∧ w.sat = (old.sat || (c.tile n).sat) ∧
        w.fz = (old.fz || (c.tile n).fz) ∧ w.merges = min (2 ^ 32 - 1) (old.merges + 1) ∧ w.drops = old.drops) ∧
      u.pos k .t = (s.pos k .t).after 2) ∧
    (n < c.ntiles → (c.tile n).claimed = false → 1 ≤ x.toNat ∧ x.toNat ≤ 128 ∧ 1 ≤ y.toNat ∧ y.toNat ≤ 128 ∧
        y.toNat * fmtBits f.toNat ≤ 2048 →
      exec (.tdesc d a b f) s = .next ((s.setCore k { c with vec := some ⟨.tdesc d a b f, x, y, c.tround, c.tsrb⟩ }).retire k .t 2)) ∧
    (n < c.ntiles → (c.tile n).claimed = false →
      exec (.tempty d) s = .next ((s.setCore k (c.setTile n { c.tile n with full := false })).retire k .t 2) ∧
      exec (.tfull d) s = .next ((s.setCore k (c.setTile n { c.tile n with full := true })).retire k .t 2)) ∧
    (n < c.ntiles → (c.tile n).claimed = true →
      exec (.tempty d) s = .next ((s.setCore k (c.setTile n { c.tile n with override := some false })).retire k .t 2) ∧
      exec (.tfull d) s = .next ((s.setCore k (c.setTile n { c.tile n with override := some true })).retire k .t 2)) ∧
    (t.toNat < c.ntiles →
      ((c.tile t.toNat).claimed = false →
        exec (.tempty16 t) s = .next ((s.setCore k (c.setTile t.toNat { c.tile t.toNat with full := false })).retire k .t 1)) ∧
      ((c.tile t.toNat).claimed = true →
        exec (.tempty16 t) s = .next ((s.setCore k (c.setTile t.toNat { c.tile t.toNat with override := some false })).retire k .t 1))) ∧
    (n < c.ntiles → exec (.tdrd d a) s = .next ((s.setReg k .t a (c.tile n).desc).retire k .t 2)) ∧
    exec (.tseed a) s = .next ((s.setCore k { c with gen := if x = 0 then 0x9E3779B97F4A7C15 else x }).retire k .t 2)

namespace Sys2Proof.Claims

/-- What an instruction but TQNT writes at an element of its destination, and the statuses raised there (R226 to R230, R235, R236, R239,
R240); none where it leaves the element. That TDQNT rounds by its own mode field (R235 against R45), and not by %tround, is the model's
reading (log 63). -/
def written (c : Core) (o : VecOp) (td : Tile) (i j : Nat) : Option (Nat × List Status) :=
  let mode := o.tround.toNat
  let x := fp32 (o.s1.setWidth 32)
  let f := (vecForm o.instr).srcs.headD 0
  let ta := c.tile f.tile
  let seen (a b : Nat) : Val × Status := ta.value f.view a b
  let second : Val × Status :=
    match (vecForm o.instr).srcs[1]? with
    | some g => (c.tile g.tile).value g.view i j
    | none => (.zero, {})
  let old : Val × Status := if (vecForm o.instr).reads then td.value 0 i j else (.zero, {})
  let rounded (m : Nat) (sat : Bool) (v : Val) (l : List Status) : Option (Nat × List Status) :=
    some ((roundTo td.fmt m sat v).1, (roundTo td.fmt m sat v).2 :: l)
  let moved (a b : Nat) : Option (Nat × List Status) :=
    if ta.fmt = td.fmt ∧ ta.fmt ≠ 2 ∧ ta.fmt ≠ 3 ∧ (f.view = 0 ∨ ta.fmt = 7) then some ((ta.elem f.view a b).1, [])
    else rounded mode true (seen a b).1 [(seen a b).2]
  let total (l : List (Val × Status)) : Option (Nat × List Status) :=
    let r := roundTo 0 mode true (valSum (l.map Prod.fst)).1
    rounded mode true (codeVal 0 r.1) ((valSum (l.map Prod.fst)).2 :: r.2 :: l.map Prod.snd)
  let largest (l : List (Val × Status)) : Option (Nat × List Status) :=
    rounded mode true (l.foldl (fun m v => (valMax m v.1).1) (.inf true)) ({ nv := l.any fun v => v.1.isNan } :: l.map Prod.snd)
  let row (m : Nat) := (List.range (ta.shape f.view).2).map (seen m)
  let column (n : Nat) := (List.range (ta.shape f.view).1).map fun m => seen m n
  match o.instr with
  | .tsel _ _ _ => rounded mode true (if old.1.isZero then second.1 else (seen i j).1)
      [{ (seen i j).2 with nv := false }, { second.2 with nv := false }, { old.2 with nv := false }]
  | .tsrnd _ _ _ =>
    let r := stochastic td.fmt (seen i j).1 ((c.tile ((vecForm o.instr).srcs.getD 1 0).tile).elem ((vecForm o.instr).srcs.getD 1 0).view i j).1 o.tsrb
    some (r.1, [(seen i j).2, r.2])
  | .tmov _ _ => moved i j
  | .trowx _ _ _ => if i = 0 then moved o.s1.toNat j else none
  | .trowi _ _ _ => if i = o.s1.toNat then moved 0 j else none
  | .trsum _ _ => if j = 0 then total (row i) else none
  | .trmax _ _ => if j = 0 then largest (row i) else none
  | .tcsum _ _ => if i = 0 then total (column j) else none
  | .tcmax _ _ => if i = 0 then largest (column j) else none
  | .tcvt _ _ r s _ => rounded r.toNat (s == 1) (seen i j).1 [(seen i j).2]
  | .tdqnt _ _ r _ => rounded r.toNat true (scaledVal ta.fmt (ta.elem f.view i j).1 (ta.elem f.view i j).2) []
  | .ttrl _ _ =>
    let codes := if ta.fmt = 2 ∨ ta.fmt = 3 then (List.range 4).map fun b => tget 0 ta.data (32256 + 4 * i + b) else []
    some ([crc32c (rowBytes ta.data ta.fmt ta.cols i ++ codes), leNat codes, ta.fmt + 8 * (ta.cols - 1) + 2 ^ 10 * i, 0].getD j 0, [])
  | .tfill _ _ => if td.fmt = 7 then some (o.s1.toNat % 2 ^ 32, []) else rounded mode true x []
  | .tiota _ => if td.fmt = 7 then some (i * td.cols + j, []) else rounded mode true (.fin false (i * td.cols + j) 0) []
  | .trand _ =>
    let n := i * td.cols + j
    some ((Nat.iterate xorshift (n / 2 + 1) c.gen).toNat / 2 ^ (32 * (n % 2)) % 2 ^ 32, [])
  | _ =>
    match elementwise mode o.instr x (seen i j).1 second.1 old.1 with
    | some v => rounded mode true v.1 [v.2, (seen i j).2, second.2, old.2]
    | none => none

/-- A value over a scale code's power of two (R44). -/
def divided (x : Val) (z : Nat) : Val :=
  match x with
  | .fin s m e => .fin s m (e + 127 - z)
  | v => v

/-- R44: the scale code of a block of values, for E4M3 or E2M1. -/
def BlockScale (f : Nat) (l : List Val) (z : Nat) : Prop :=
  ((∃ v ∈ l, v.isInf = true) → z = 254) ∧
  ((∀ v ∈ l, v.isInf = false ∧ ∀ X, IsReal v X → X = 0) → z = 127) ∧
  ((∀ v ∈ l, v.isInf = false) → ∀ v ∈ l, ∀ X, IsReal v X → X ≠ 0 → (∀ w ∈ l, ∀ Y, IsReal w Y → |Y| ≤ |X|) →
    ∀ n : Int, 2 ^ n ≤ |X| → |X| < 2 ^ (n + 1) → (z : Int) = max 0 (min 254 (n - (if f = 2 then 8 else 2) + 127)))

end Sys2Proof.Claims

/-- R27, R34, R61 and R225: where an element and its scale code lie in a tile's bytes, and what the four views show. -/
def Sys2Proof.Claims.TileReads : Prop :=
  ∀ (t : Tile) (i j : Nat), LegalTile t →
    let n := [4, 2, 1, 1, 1, 4, 2, 4].getD t.fmt 4
    let pitch := [256, 256, 128, 64, 128, 256, 256, 256].getD t.fmt 256
    (t.fmt ≠ 3 → t.code i j = leNat ((List.range n).map fun b => tget 0 t.data (i * pitch + j * n + b))) ∧
    (t.fmt = 3 → t.code i j = (tget 0 t.data (i * 64 + j / 2)).toNat / 16 ^ (j % 2) % 16) ∧
    t.elem 0 i j = (t.code i j, if t.fmt = 2 ∨ t.fmt = 3 then (tget 0 t.data (32256 + 4 * i + j / 32)).toNat else 127) ∧
    t.elem 1 i j = t.elem 0 j i ∧ t.elem 2 i j = t.elem 0 0 j ∧ t.elem 3 i j = (if i < t.cols then t.elem 0 i i else (0, 127)) ∧
    (∀ v, t.value v i j = toFp32 t.fmt (t.elem v i j).1 (t.elem v i j).2) ∧ crc32c [0x31, 0x32, 0x33, 0x34, 0x35, 0x36, 0x37, 0x38, 0x39] = 0xE3069283

/-- R34, R38, R222, R226 to R230, R235, R236, R239 and R240: when an instruction of the vector unit completes, each element that its rule
writes holds the rule's value, every other keeps its code, the rows written take scale code 127 and the others keep theirs, the
destination's status joins what was raised; TRAND steps the generator once for two elements; no other tile changes its data. (Two
values are the model's reading, log 63: TDQNT's own rounding mode, and no NV for a NaN bound of TCLAMP; a third log 89: TROWX and TROWI
copy bits where TMOV does.) -/
def Sys2Proof.Claims.TileResults : Prop :=
  ∀ (s : State) (k : Nat) (o : VecOp) (d : TileField), (s.core k).vec = some o → (s.core k).raised = none → s.clocked k = true →
    (vecForm o.instr).dst = some d → LegalTile ((s.core k).tile d.tile) → Passes (s.core k) o.instr o.s1 o.s2 →
    (∀ a b f, o.instr ≠ .tqnt a b f) → ¬ atOnce o.instr →
    let c := s.core k
    let td := c.tile d.tile
    let w := written c o td
    ∃ u, exec (.vectorComplete k) s = .next u ∧ (u.core k).vec = none ∧
      (∀ n, n ≠ d.tile → ((u.core k).tile n).data = (c.tile n).data) ∧
      (let t := (u.core k).tile d.tile
      t.fmt = td.fmt ∧ t.rows = td.rows ∧ t.cols = td.cols ∧
        (∀ i j, i < td.rows → j < td.cols →
          t.code i j = match w i j with | some r => r.1 % 2 ^ fmtBits td.fmt | none => td.code i j) ∧
        (td.fmt = 2 ∨ td.fmt = 3 → ∀ i b, i < td.rows → b < 4 →
          t.blockScale i b = if (w i 0).isSome then 127 else td.blockScale i b) ∧
        Gathers td t fun x => ∃ i j r, i < td.rows ∧ j < td.cols ∧ w i j = some r ∧ x ∈ r.2) ∧
      (u.core k).gen = match o.instr with
        | .trand _ => Nat.iterate xorshift ((td.rows * td.cols + 1) / 2) c.gen
        | _ => c.gen

/-- R44 and R235: TQNT gives each block of 32 columns of a row its scale code, and each element the code of its value over that power of
two, rounded by RNE with saturation. -/
def Sys2Proof.Claims.Quantisation : Prop :=
  ∀ (s : State) (k : Nat) (o : VecOp) (d a : BitVec 8) (f : BitVec 1), (s.core k).vec = some o → (s.core k).raised = none → s.clocked k = true →
    o.instr = .tqnt d a f → LegalTile ((s.core k).tile (d.toNat / 8)) → Passes (s.core k) o.instr o.s1 o.s2 →
    let c := s.core k
    let td := c.tile (d.toNat / 8)
    let ta := c.tile (a.toNat / 8)
    let x (i j : Nat) : Val × Status := ta.value (TileField.view a) i j
    ∃ u, exec (.vectorComplete k) s = .next u ∧
      let t := (u.core k).tile (d.toNat / 8)
      let code (i j : Nat) : Nat × Status := roundTo td.fmt 0 true (divided (x i j).1 (t.blockScale i (j / 32)))
      (∀ i b, i < td.rows → b < 4 →
        BlockScale td.fmt (((List.range 32).map (32 * b + ·)).filter (· < td.cols) |>.map fun j => (x i j).1) (t.blockScale i b)) ∧
      (∀ i j, i < td.rows → j < td.cols → t.code i j = (code i j).1 % 2 ^ fmtBits td.fmt) ∧
      Gathers td t fun z => ∃ i j, i < td.rows ∧ j < td.cols ∧ (z = (x i j).2 ∨ z = (code i j).2)

/-- What every instruction of the vector unit that claims a destination leaves in it. TDQNT's own rounding mode and the silent NaN bound
of TCLAMP are the model's reading (log 63). -/
def Obligations.TileResults : Prop :=
  Claims.TileReads ∧ Claims.TileResults ∧ Claims.Quantisation

/-! ### The matrix unit and the exchange of tiles -/

/-- R220, R221, R231 to R234: a TM instruction enters the matrix unit behind the others, up to four; a fifth, of any of the five forms,
waits; one that names a tile at or above the tile count raises cause 0x05; a product in a launch of lamp class none raises cause 0x12.
(That the instruction at work counts among the four is the model's reading, log 39.) -/
def Sys2Proof.Claims.MatrixIssue : Prop :=
  ∀ (s : State) (k : Nat) (m : BitVec 1) (a b d : BitVec 8) (x c : BitVec 1) (r f : BitVec 2) (l : BitVec 8) (co : Reg) (g : BitVec 1),
    s.turn = some (k, .t) →
    let e := s.core k
    let enters (i : Instr) (coords : Word) : Prop := exec i s = .next (((s.setCore k { e with mat := e.mat ++
      [⟨i, coords, e.tclamp, false, 0, false, (s.pos k .t).hdr, (s.pos k .t).off, s.order, s.order⟩] }).tick).retire k .t 2)
    (e.mat.length < 4 →
      (a.toNat / 8 < e.ntiles → b.toNat / 8 < e.ntiles → e.lampClass ≠ 0 → enters (.tmma m a b) 0 ∧ enters (.tmmaz m a b) 0) ∧
      (a.toNat / 8 < e.ntiles → b.toNat / 8 < e.ntiles → e.lampClass = 0 →
        exec (.tmma m a b) s = .next (s.raise k .t 0x12 (lampInfo (.tmma m a b))) ∧
        exec (.tmmaz m a b) s = .next (s.raise k .t 0x12 (lampInfo (.tmmaz m a b)))) ∧
      (e.ntiles ≤ a.toNat / 8 → ∀ i ∈ [Instr.tmma m a b, .tmmaz m a b],
        exec i s = .next (s.raise k .t 0x05 (word (a.toNat / 8 + 2 ^ 8 * e.ntiles)))) ∧
      (a.toNat / 8 < e.ntiles → e.ntiles ≤ b.toNat / 8 → ∀ i ∈ [Instr.tmma m a b, .tmmaz m a b],
        exec i s = .next (s.raise k .t 0x05 (word (b.toNat / 8 + 2 ^ 8 * e.ntiles)))) ∧
      (e.ntiles ≤ d.toNat / 8 → exec (.tdrain m d x c r f) s = .next (s.raise k .t 0x05 (word (d.toNat / 8 + 2 ^ 8 * e.ntiles)))) ∧
      (d.toNat / 8 < e.ntiles → enters (.tdrain m d x c r f) 0) ∧ enters (.taclr m) 0 ∧
      ∀ y, s.anyPending k .t [co] = false → s.layout k l.toNat false true true = .ok y → y.space ∈ [0, 1, 2, 4] →
        y.efmt = g.toNat → enters (.tdrainm m l co x g) (s.reg k .t co)) ∧
    (4 ≤ e.mat.length → exec (.tmma m a b) s = .next (s.waitOn k .t .unit) ∧ exec (.tmmaz m a b) s = .next (s.waitOn k .t .unit) ∧
      exec (.tdrain m d x c r f) s = .next (s.waitOn k .t .unit) ∧ exec (.taclr m) s = .next (s.waitOn k .t .unit) ∧
      (s.anyPending k .t [co] = false → exec (.tdrainm m l co x g) s = .next (s.waitOn k .t .unit)))

/-- R46, R47, R231: a product starts where its tiles, its formats, the lamp and %pace allow it; each of its blocks rounds once, for every
output, the exact sum of the old element and sixteen products, or of the products alone in the first block of TMMAZ; the accumulator's
OV and NV join what its products, sums and roundings raise, and its SAT stays. (A sum with a NaN that the accumulator held raises NV
too, log 37; a zero INT8 factor is +0 in the sign of its product, log 63: the model's readings.) -/
def Sys2Proof.Claims.MatrixProducts : Prop :=
  ∀ (s : State) (k : Nat) (o : MatOp) (rest : List MatOp) (acc : BitVec 1) (a b : BitVec 8),
    (s.core k).mat = o :: rest → o.instr = .tmma acc a b ∨ o.instr = .tmmaz acc a b →
    s.unitsRun k = true → s.holdsLamp k = true →
    let c := s.core k
    let ta := c.tile (a.toNat / 8)
    let tb := c.tile (b.toNat / 8)
    let va := TileField.view a
    let vb := TileField.view b
    (o.started = false → s.paceReady k .t = true → c.accepts (matUses o.instr) = true → ta.fmt ∈ [1, 2, 3, 4] → tb.fmt ∈ [1, 2, 3, 4] →
      va < 2 → vb < 2 → (ta.shape va).2 = (tb.shape vb).1 →
      ∃ u, exec (.matrixStart k) s = .next u ∧ (u.core k).mat = { o with started := true } :: rest ∧
        ((u.core k).acc acc).rows = (ta.shape va).1 ∧ ((u.core k).acc acc).cols = (tb.shape vb).2 ∧
        ((u.core k).acc acc).elems = (c.acc acc).elems ∧ SameMemory s u) ∧
    (o.started = true → o.ready = false → ta.rows ≤ 128 → ta.cols ≤ 128 → tb.rows ≤ 128 → tb.cols ≤ 128 →
      TableWf 0 (c.acc acc).elems →
      ∃ u, exec (.matrixBlock k) s = .next u ∧
        (u.core k).mat = { o with
          done := o.done + 1, ready := decide (((ta.shape va).2 + 15) / 16 ≤ o.done + 1) } :: rest ∧
        (∀ i j, i < (ta.shape va).1 → j < (tb.shape vb).2 →
          let terms := (List.range (min (16 * o.done + 16) (ta.shape va).2 - 16 * o.done)).map fun n =>
            (valMul (ta.exact va i (16 * o.done + n)) (tb.exact vb (16 * o.done + n) j)).1
          let old := if o.instr = .tmmaz acc a b ∧ o.done = 0 then [] else [(c.acc acc).value i j]
          tget 0 ((u.core k).acc acc).elems (128 * i + j) = BitVec.ofNat 64 (roundTo 8 0 true (valSum (old ++ terms)).1).1) ∧
        (let old (i j : Nat) := if o.instr = .tmmaz acc a b ∧ o.done = 0 then [] else [(c.acc acc).value i j]
          let terms (i j : Nat) := (List.range (min (16 * o.done + 16) (ta.shape va).2 - 16 * o.done)).map fun n =>
            valMul (ta.exact va i (16 * o.done + n)) (tb.exact vb (16 * o.done + n) j)
          let sum (i j : Nat) := valSum (old i j ++ (terms i j).map Prod.fst)
          let raised (bit : Status → Bool) : Prop := ∃ i j, i < (ta.shape va).1 ∧ j < (tb.shape vb).2 ∧
            ((∃ x ∈ terms i j, bit x.2 = true) ∨ bit (sum i j).2 = true ∨ bit (roundTo 8 0 true (sum i j).1).2 = true)
          (((u.core k).acc acc).ov = true ↔ (c.acc acc).ov = true ∨ raised Status.ov) ∧
          (((u.core k).acc acc).nv = true ↔ (c.acc acc).nv = true ∨ raised Status.nv) ∧
          ((u.core k).acc acc).sat = (c.acc acc).sat ∧ (u.core k).acc (acc ^^^ 1) = c.acc (acc ^^^ 1)) ∧
        (∀ n, (u.core k).tile n = c.tile n) ∧ SameMemory s u)

/-- R48, R221, R232, R234: TDRAIN and TACLR start at the head of the unit, and complete: TACLR clears its accumulator, TDRAIN writes every
element of its tile, and the next instruction is at the head. (The sign of an exact zero sum of TDRAIN.acc, + unless every term is -0,
is the model's choice, log 63; that .clamp takes %tclamp as it stood at issue is its reading, log 89.) -/
def Sys2Proof.Claims.MatrixCompletes : Prop :=
  ∀ (s : State) (k : Nat) (o : MatOp) (rest : List MatOp), (s.core k).mat = o :: rest → (s.core k).raised = none →
    let c := s.core k
    (∀ acc, o.instr = .taclr acc → (o.started = false → s.unitsRun k = true →
        exec (.matrixStart k) s = .next (s.setCore k { c with mat := { o with started := true, ready := true } :: rest })) ∧
      (o.ready = true → s.completes k = true → ∃ u, exec (.matrixComplete k) s = .next u ∧ (u.core k).acc acc = ⟨[], false, false, false, 128, 128⟩ ∧
        (u.core k).acc (acc ^^^ 1) = c.acc (acc ^^^ 1) ∧ (u.core k).mat.map (fun m => m.instr) = rest.map fun m => m.instr)) ∧
    (∀ acc d x cl r f, o.instr = .tdrain acc d x cl r f →
      let td := c.tile (d.toNat / 8)
      (o.started = false → s.unitsRun k = true → c.accepts (matUses o.instr) = true → td.fmt = [0, 1, 2, 5].getD f.toNat 0 →
        ∃ u, exec (.matrixStart k) s = .next u ∧ (u.core k).mat = { o with started := true, ready := true } :: rest ∧
          ((u.core k).tile (d.toNat / 8)).writing = true) ∧
      (o.ready = true → s.completes k = true → LegalTile td → ∃ u, exec (.matrixComplete k) s = .next u ∧
        (u.core k).acc acc = c.acc acc ∧ (u.core k).mat.map (fun m => m.instr) = rest.map (fun m => m.instr) ∧
        (cl = 0 →
          let sum (i j : Nat) := valSum (if x = 1 then [(c.acc acc).value i j, td.exact 0 i j] else [(c.acc acc).value i j])
          (∀ i j, i < td.rows → j < td.cols → ((u.core k).tile (d.toNat / 8)).code i j =
            (roundTo td.fmt r.toNat true (sum i j).1).1 % 2 ^ fmtBits td.fmt) ∧
          Gathers td ((u.core k).tile (d.toNat / 8)) fun w => w = (c.acc acc).status ∨ ∃ i j, i < td.rows ∧ j < td.cols ∧
            (w = (sum i j).2 ∨ w = (roundTo td.fmt r.toNat true (sum i j).1).2))))

/-- R73: the address of the element at column offset j and row offset i from a layout's coordinates. -/
def Sys2Proof.Claims.cellAt (y : Layout) (coords : Word) (i j : Nat) : Nat := y.address (y.index coords [(j : Int), (i : Int)])

/-- R73: that element lies inside the extents. -/
def Sys2Proof.Claims.cellIn (y : Layout) (coords : Word) (i j : Nat) : Prop := y.inBounds (y.index coords [(j : Int), (i : Int)]) = true

/-- R49, R73, R233: TDRAINM into the core's own scratch, where no two elements overlap: every element of the drain shape inside the extents
becomes the exact sum of itself and the accumulator's, rounded once by RNE; every other byte keeps its value; the elements
outside are counted, and the accumulator's and the sums' status joins the entry of the layout, in the table of the arming that fired
the point (log 82). A started one completes. (The sign of an exact zero sum is the model's choice, log 63.) -/
def Sys2Proof.Claims.DrainToMemory : Prop :=
  ∀ (s : State) (k : Nat) (o : MatOp) (rest : List MatOp) (acc : BitVec 1) (l : BitVec 8) (co : Reg) (f : BitVec 1) (y : Layout) (p : Point),
    (s.core k).mat = o :: rest → o.instr = .tdrainm acc l co 0 f →
    (s.core k).point = some p → (s.record p.recNo).arming = p.arming → s.layout k l.toNat false true true = .ok y → y.space = 0 →
    y.efmt = f.toNat →
    let c := s.core k
    let a := c.acc acc
    let n := if f = 0 then 4 else 2
    let inside (i j : Nat) : Prop := i < a.rows ∧ j < a.cols ∧ cellIn y o.coords i j
    let old (i j : Nat) : Nat := leNat ((List.range n).map fun b => tget 0 c.scratch (cellAt y o.coords i j + b))
    let sum (i j : Nat) : Val × Status := valSum [a.value i j, codeVal f.toNat (old i j)]
    let z : Stat := ⟨false, false, false, false, 0, 0⟩
    let e := tget z (s.record p.recNo).stats y.tid
    (o.started = false → s.unitsRun k = true → c.accessesBefore .t o.issued = false → TableWf 0 c.scratch →
      (∀ i j, inside i j → cellAt y o.coords i j + n ≤ c.scratchSize ∧ ∀ b, b < n → tget false c.scratchBad (cellAt y o.coords i j + b) = false) →
      (∀ i j i2 j2, inside i j → inside i2 j2 → (i, j) ≠ (i2, j2) →
        cellAt y o.coords i j + n ≤ cellAt y o.coords i2 j2 ∨ cellAt y o.coords i2 j2 + n ≤ cellAt y o.coords i j) →
      ∃ u, exec (.matrixStart k) s = .next u ∧ (u.core k).mat = { o with started := true, ready := true } :: rest ∧
        (u.core k).acc acc = a ∧
        (∀ i j, inside i j → ∀ b, b < n → tget 0 (u.core k).scratch (cellAt y o.coords i j + b) =
          (leBytes n (roundTo f.toNat 0 true (sum i j).1).1).getD b 0) ∧
        (∀ x, (∀ i j, inside i j → x < cellAt y o.coords i j ∨ cellAt y o.coords i j + n ≤ x) →
          tget 0 (u.core k).scratch x = tget 0 c.scratch x) ∧
        let g := tget z (u.record p.recNo).stats y.tid
        let raised (bit : Status → Bool) : Prop := bit a.status = true ∨
          ∃ i j, inside i j ∧ (bit (sum i j).2 = true ∨ bit (roundTo f.toNat 0 true (sum i j).1).2 = true)
        (g.ov = true ↔ e.ov = true ∨ raised Status.ov) ∧ (g.nv = true ↔ e.nv = true ∨ raised Status.nv) ∧
        (g.sat = true ↔ e.sat = true ∨ raised Status.sat) ∧ g.fz = e.fz ∧ g.merges = e.merges ∧
        ∀ out : List (Nat × Nat), out.Nodup → (∀ x, x ∈ out ↔ x.1 < a.rows ∧ x.2 < a.cols ∧ ¬ cellIn y o.coords x.1 x.2) →
          g.drops = if out = [] then e.drops else min (2 ^ 64 - 1) (e.drops + out.length)) ∧
    (o.ready = true → s.completes k = true → c.raised = none → ∃ u, exec (.matrixComplete k) s = .next u ∧
      (u.core k).mat.map (fun m => m.instr) = rest.map (fun m => m.instr) ∧ (∀ m, (u.core k).tile m = c.tile m) ∧
      (u.core k).acc acc = a ∧ SameMemory s u)

/-- R211: XSW waits for its twin; two XSWs that name one unclaimed tile of both cores claim it; then its bytes and descriptors change
places and both retire; XSWs that name two tiles raise cause 0x06, reason 7, at both. -/
def Sys2Proof.Claims.TileExchange : Prop :=
  ∀ (s : State) (n : Nat) (t v : BitVec 5),
    let a := 2 * n
    let b := 2 * n + 1
    (∀ k, s.turn = some (k, .t) → exec (.xsw t) s = .next (s.waitOn k .t (.xsw t.toNat))) ∧
    (s.waitingXsw a = some t.toNat → s.waitingXsw b = some v.toNat → t.toNat < (s.core a).ntiles → t.toNat < (s.core b).ntiles →
      v.toNat < (s.core a).ntiles → v.toNat < (s.core b).ntiles →
      (t = v → ((s.core a).tile t.toNat).claimed = false → ((s.core b).tile t.toNat).claimed = false →
        ∃ u, exec (.xswPair n) s = .next u ∧ (u.core a).xsw = some t.toNat ∧ (u.core b).xsw = some t.toNat ∧
          ((u.core a).tile t.toNat).claimed = true ∧ ((u.core b).tile t.toNat).claimed = true) ∧
      (t ≠ v → exec (.xswPair n) s = .next ((s.raise a .t 0x06 (word (v.toNat + 256 * 7))).raise b .t 0x06 (word (t.toNat + 256 * 7))))) ∧
    ((s.core a).xsw = some t.toNat → (s.core b).xsw = some t.toNat → (s.core a).raised = none → (s.core b).raised = none →
      s.clocked a = true →
      ∃ u, exec (.xswComplete n) s = .next u ∧ (u.core a).xsw = none ∧ (u.core b).xsw = none ∧
        (u.core a).tile t.toNat = { (s.core b).tile t.toNat with writing := false } ∧
        (u.core b).tile t.toNat = { (s.core a).tile t.toNat with writing := false } ∧
        (∀ m, m ≠ t.toNat → (u.core a).tile m = (s.core a).tile m ∧ (u.core b).tile m = (s.core b).tile m) ∧
        (u.stream a .t).wait = none ∧ (u.stream b .t).wait = none ∧ SameMemory s u)

/-! ### The array engine -/

namespace Sys2Proof.Claims

/-- The ranges of R70: register n accepts a word. -/
def InRange (n : Nat) (w : Word) : Prop :=
  let v := w.toNat
  let low := fp32 (w.setWidth 32)
  let notNegative := ∃ sg m e, low = .fin sg m e ∧ (sg = false ∨ m = 0)
  match n with
  | 0 => 1 ≤ v ∧ v ≤ 128
  | 1 => 1 ≤ v ∧ v ≤ 63
  | 2 => notNegative
  | 3 => notNegative
  | 4 => ∃ sg m e, low = .fin sg m e ∧ -16 ≤ low.rat ∧ low.rat ≤ 16
  | 5 => v ≤ 1
  | 6 => ∃ m e, low = .fin false m e ∧ m ≠ 0
  | 7 => 1 ≤ v ∧ v ≤ 65535
  | 8 => v ≤ 511
  | 9 => 1 ≤ v ∧ v ≤ 512
  | 10 => notNegative
  | 11 => notNegative
  | 12 => v = 1 ∨ v = 2 ∨ v = 4 ∨ v = 8 ∨ v = 16
  | 13 => v ≤ 511
  | 14 => 1 ≤ v ∧ v ≤ 512
  | 15 => v < 32 ∧ ¬ (v / 8 % 2 = 1 ∧ v / 16 % 2 = 1)
  | 16 => v % 2 ^ 32 ≤ 512 ∧ v / 2 ^ 32 ≤ 512
  | 17 => v % 2 ^ 32 ≤ 512 ∧ v / 2 ^ 32 ≤ 512
  | 18 => notNegative
  | 19 => True
  | 20 => 1 ≤ v ∧ v ≤ 255
  | 21 => ∃ m e, low = .fin false m e ∧ m ≠ 0
  | _ => False

/-- The FP32 parameters of R70. -/
def isFp32 (n : Nat) : Bool := [2, 3, 4, 6, 10, 11, 18, 21].contains n

/-- The array instructions of R256 with the panel field, its register flag and the quads or tiles each claims. -/
def arrayForm (i : Instr) : Option (BitVec 5 × BitVec 1) :=
  match i with
  | .afwd p _ _ _ _ x | .abwd p _ _ _ _ x | .aupd p _ _ _ _ x => some (p, x)
  | .axfr p x | .argrw p x | .aseed p x | .azero p x => some (p, x)
  | .acal p _ _ x | .aasy p _ _ x | .aprog p _ _ x => some (p, x)
  | .amask p _ x => some (p, x)
  | .astat p _ _ x => some (p, x)
  | _ => none

/-- The checks 2 to 9 of R256 pass for panel p. -/
def PanelReady (s : State) (k p : Nat) (i : Instr) : Prop :=
  let c := s.core k
  let x := c.panel p
  (∃ q, c.point = some q ∧ q.panels.getLsbD p = true) ∧ x.owner = some c.part ∧ x.retired = false ∧ x.calibrated = true ∧
    x.leaving = false ∧ (∀ u ∈ arrUses i, u.tile < c.ntiles) ∧ jointLimit i c.ap = none ∧
    (isHeavy i = true → c.lampClass ≠ 0) ∧
    (match i with
      | .argrw _ _ => x.maskBound = true ∧ x.maskHome + 32768 ≤ c.scratchSize
      | .amask _ l _ => ∃ y, s.layout k l.toNat true false false = .ok y ∧ y.space = 0 ∧ y.base % 64 = 0 ∧
          y.base + 32768 ≤ c.scratchSize
      | _ => True)

end Sys2Proof.Claims

/-- R70 and R272: ASET writes a parameter within its range, the FP32 ones from the low word, and raises cause 0x0E otherwise, writing
nothing; it reads a parameter into its register, and ap.stat once every earlier operation has completed. -/
def Sys2Proof.Claims.ArrayParameters : Prop :=
  ∀ (s : State) (k : Nat) (p : BitVec 5) (r : Reg), Acts s k .a [r] →
    let c := s.core k
    let w := s.reg k .a r
    (InRange p.toNat w → ∃ u, exec (.asetWrite p r) s = .next u ∧ OnlyCore k s u ∧
      (∀ n, n < 24 → (u.core k).ap.toList.getD n 0 =
        if n = p.toNat then (if isFp32 n then word (w.toNat % 2 ^ 32) else w) else c.ap.toList.getD n 0) ∧
      u.pos k .a = (s.pos k .a).after 2 ∧ ∀ q, u.reg k .a q = s.reg k .a q) ∧
    (p.toNat < 22 → ¬ InRange p.toNat w → exec (.asetWrite p r) s = .next (s.raise k .a 0x0E (word (p.toNat + 256 * 1)))) ∧
    (22 ≤ p.toNat → exec (.asetWrite p r) s = .next (s.raise k .a 0x0E (word (p.toNat + 256 * 2)))) ∧
    (p.toNat = 22 ∨ 24 ≤ p.toNat → exec (.asetRead p r) s = wrote s k .a r 2 0) ∧
    (p.toNat < 22 ∨ p.toNat = 23 ∧ c.arr = [] → exec (.asetRead p r) s = wrote s k .a r 2 (c.ap.toList.getD p.toNat 0)) ∧
    (p.toNat = 23 → c.arr ≠ [] → exec (.asetRead p r) s = .next (s.waitOn k .a .arrays))

namespace Sys2Proof.Claims

/-- Step 10 of R256 is met: the panel and the tiles can be claimed, and a heavy instruction has its pace and the lamp. -/
def ArrayReady (s : State) (k n : Nat) (i : Instr) : Prop :=
  (s.core k).panelFree n = true ∧ (s.core k).accepts (arrUses i) = true ∧
    (isHeavy i = true → s.paceReady k .a = true ∧ s.holdsLamp k = true)

/-- R257: an array instruction of panel n issues: it copies the parameters, claims its tiles, and the stream goes on; AXFR advances
ap.c0. -/
def ArrayIssued (s u : State) (k n plane : Nat) (i : Instr) : Prop :=
  let c := s.core k
  (u.core k).arr = c.arr ++
    [⟨i, n, plane, c.ap, 0, 0, false, false, false, [], false, false, (s.pos k .a).hdr, (s.pos k .a).off, s.order⟩] ∧
  (∀ t, (u.core k).tile t = (c.claim (arrUses i)).tile t) ∧ u.pos k .a = (s.pos k .a).after 2 ∧
  (∀ r, u.reg k .a r = s.reg k .a r) ∧ SameMemory s u ∧
  ∀ m, m < 24 → (u.core k).ap.toList.getD m 0 = if (∃ p x, i = .axfr p x) ∧ m = 8 then
    word (((c.ap.toList.getD 8 0).toNat + (c.ap.toList.getD 9 0).toNat) % 512) else c.ap.toList.getD m 0

end Sys2Proof.Claims

/-- R256 and R257: an array instruction whose checks pass issues, or waits while its panel, its tiles or %pace hold it back. A panel
outside the launch's set raises cause 0x0D, reason 4, and a register above 31 reason 5. -/
def Sys2Proof.Claims.ArrayIssue : Prop :=
  ∀ (s : State) (k : Nat) (i : Instr) (p : BitVec 5) (x : BitVec 1) (n plane : Nat),
    s.turn = some (k, .a) → (∀ j q b m, (s.stream k .a).wait ≠ some (.panel j q b, m)) →
    arrayForm i = some (p, x) → (x = 1 → s.anyPending k .a [p] = false) →
    n = (if x = 1 then (s.reg k .a p).toNat else p.toNat) →
    (match i with
      | .amask _ l _ => ∃ y, s.layout k l.toNat true false false = .ok y ∧ y.base = plane
      | _ => plane = 0) →
    let c := s.core k
    (n < 32 → PanelReady s k n i → ArrayReady s k n i → c.arrOperands i = none →
      ∃ u, exec i s = .next u ∧ ArrayIssued s u k n plane i) ∧
    (n < 32 → PanelReady s k n i →
      c.panelFree n = false ∨ c.accepts (arrUses i) = false ∨ isHeavy i = true ∧ s.paceReady k .a = false →
      exec i s = .next (s.waitOn k .a (.panel i n plane))) ∧
    (n < 32 → (∀ q, c.point = some q → q.panels.getLsbD n = false) → exec i s = .next (s.raise k .a 0x0D (word (n + 256 * 4)))) ∧
    (32 ≤ n → exec i s = .next (s.raise k .a 0x0D (word (256 * 5 + 2 ^ 16 * (n % 2 ^ 48)))))

/-- R256: an array instruction that waits at step 10 issues once that step is met, from its turn or by the event of the issue, and makes
none of its earlier checks again. -/
def Sys2Proof.Claims.ArrayRetry : Prop :=
  ∀ (s : State) (k n plane m : Nat) (i e : Instr) (p : BitVec 5) (x : BitVec 1),
    (s.stream k .a).wait = some (.panel i n plane, m) → arrayForm i = some (p, x) →
    (e = i ∧ s.turn = some (k, .a) ∨ e = .arrayIssue k ∧ s.runnable k .a = true) →
    ArrayReady s k n i → (s.core k).arrOperands i = none → ∃ u, exec e s = .next u ∧ ArrayIssued s u k n plane i

/-- R261, R262, R270, R274: a stop unit of an operation advances it by one; AFWD, ABWD, AASY, ASTAT, ASEED and AMASK change no wear and, in
the nominal model, no weight; there AUPD and AXFR change no weight of a frozen row or column; ASEED seeds the two generators. -/
def Sys2Proof.Claims.ArrayUnits : Prop :=
  ∀ (s : State) (k p : Nat) (o : ArrOp), (s.core k).opOf p = some o →
    let c := s.core k
    ∃ u, exec (.arrayUnit k p) s = .next u ∧
      (o.ready = false → s.unitsRun k = true → (isHeavy o.instr = true → s.holdsLamp k = true) →
        (∀ q l x, o.instr ≠ .amask q l x) → o.reading = false →
        ∃ o1, (u.core k).opOf p = some o1 ∧ o1.units = o.units + 1 ∧ o1.ready = decide (o.total ≤ o.units + 1) ∧ SameMemory s u) ∧
      (pulses o.instr = false → ∀ n, ((u.core k).panel n).wear = (c.panel n).wear ∧
        (s.nominal = true → ((u.core k).panel n).slow = (c.panel n).slow ∧ ((u.core k).panel n).fast = (c.panel n).fast)) ∧
      (s.nominal = true → (∃ q a b d e x, o.instr = .aupd q a b d e x) ∧ (o.params.toList.getD 8 0).toNat + (o.params.toList.getD 9 0).toNat ≤ 512 ∨
          (∃ q x, o.instr = .axfr q x) →
        ∀ i j, j < 512 → frozenRow o.params i = true ∨ frozenCol o.params j = true →
          ((u.core k).panel p).slowAt i j = (c.panel p).slowAt i j ∧ ((u.core k).panel p).fastAt i j = (c.panel p).fastAt i j) ∧
      (∀ q x, o.instr = .aseed q x → o.ready = false → s.unitsRun k = true →
        ((u.core k).panel p).rowGen = seeded (o.params.toList.getD 19 0) ∧
        ((u.core k).panel p).colGen = seeded (~~~(o.params.toList.getD 19 0)))

/-- R257: an operation that is the only one completes: its panel is free, ap.stat holds its count, and its marked sources are empty and
its destinations full. -/
def Sys2Proof.Claims.ArrayCompletes : Prop :=
  ∀ (s : State) (k : Nat) (o : ArrOp), (s.core k).arr = [o] → o.finished = false → o.ready = true → s.completes k = true →
    (s.core k).raised = none →
    ∃ u, exec (.arrayComplete k o.panel) s = .next u ∧ (u.core k).arr = [] ∧
      (u.core k).ap.toList.getD 23 0 = word o.count ∧ (∀ n, n < 23 → (u.core k).ap.toList.getD n 0 = (s.core k).ap.toList.getD n 0) ∧
      (∀ w ∈ arrUses o.instr, ((s.core k).tile w.tile).override = none →
        ((u.core k).tile w.tile).full = (if w.dst then true else if w.cons then false else ((s.core k).tile w.tile).full)) ∧
      (∀ n, ((u.core k).tile n).data = ((s.core k).tile n).data) ∧ SameMemory s u

/-! ### What the array instructions compute: the nominal model of R1 and R249 -/

namespace Sys2Proof.Claims

/-- Nothing keeps the operation of panel p of core k from its next stop unit. -/
def AtUnit (s : State) (k p : Nat) (o : ArrOp) : Prop :=
  (s.core k).opOf p = some o ∧ o.ready = false ∧ s.unitsRun k = true ∧ (isHeavy o.instr = true → s.holdsLamp k = true) ∧
    (o.reading = true → (s.core k).accessesBefore .a o.issued = false)

/-- R36: x rounded to the nearest integer, a tie to the even one. -/
def IsRne (x : Rat) (n : Int) : Prop := |x - n| ≤ 1 / 2 ∧ (|x - n| = 1 / 2 → n % 2 = 0)

/-- R51: the ADC code of a rounded quotient, and whether it clips. -/
def adcCode (n : Int) : Int := max (-511) (min 511 n)

/-- R51: the ADC clips. -/
def clips (n : Int) : Bool := decide (n < -511) || decide (511 < n)

/-- R51: one step of the ADC, ap.orng / 511. -/
def adcStep (v : Vector Word 24) : Rat := (par v 7 : Rat) / 511

/-- R70: row i is one of ap.frow to ap.frow + ap.nrow - 1. -/
def inRows (v : Vector Word 24) (i : Nat) : Bool := decide (par v 13 ≤ i) && decide (i < par v 13 + par v 14)

/-- R70: column j is one of ap.c0 to ap.c0 + ap.nc - 1. -/
def inCols (v : Vector Word 24) (j : Nat) : Bool := decide (par v 8 ≤ j) && decide (j < par v 8 + par v 9)

/-- R258: the selected rows are rows of the panel. -/
def WithinRows (v : Vector Word 24) : Prop := par v 13 + par v 14 ≤ 512

/-- R258: the selected columns are columns of the panel. -/
def WithinCols (v : Vector Word 24) : Prop := par v 8 + par v 9 ≤ 512

/-- The tables of a panel list each cell once, in order. -/
def LegalPanel (w : Panel) : Prop := TableWf 0 w.slow ∧ TableWf 0 w.fast ∧ TableWf 0 w.wear

/-- R259: the quad from tile b is of one 16-bit format and 128 columns, and holds vector n. -/
def LegalQuad (c : Core) (b f n : Nat) : Prop :=
  f ∈ [1, 6] ∧ ∀ t, t < 4 → LegalTile (c.tile (b + t)) ∧ (c.tile (b + t)).fmt = f ∧ (c.tile (b + t)).cols = 128 ∧ n < (c.tile (b + t)).rows

/-- R259: the code of element e of vector n of a quad. -/
def quadCode (c : Core) (b n e : Nat) : Nat := (c.tile (b + e / 128)).code n (e % 128)

/-- R249: a weight after an up or a down pulse. -/
def pulsed (fast down : Bool) (w : Rat) : Rat :=
  let d : Rat := if fast then 1 / 1024 else 1 / 4096
  if down then w - d * (1 + w) else w + d * (1 - w)

/-- R55: byte n of a slot, from the generator as the slot finds it. -/
def slotByte (g : Word) (n : Nat) : Nat := (Nat.iterate xorshift (n / 8 + 1) g).toNat / 256 ^ (n % 8) % 256

/-- R55: a generator as slot m finds it. -/
def atSlot (g : Word) (m : Nat) : Word := Nat.iterate xorshift (64 * m) g

/-- R52: a pulse-probability code. -/
def PulseCode (c : Rat) (x : Val) (n : Nat) : Prop :=
  match x with
  | .nan _ => n = 0
  | .inf _ => n = 256
  | .fin _ _ _ => ∃ z, IsRne (|x.rat| * c * 256) z ∧ (n : Int) = min 256 z

/-- R263: where a loop leaves a cell whose target is a value over a scale, and whether it is a miss. -/
def Driven (tol : Rat) (x : Val) (scale w : Rat) (miss : Bool) : Prop :=
  match x with
  | .nan _ => w = 0 ∧ miss = true
  | .inf s => w = (if s then -1 else 1) ∧ miss = true
  | .fin _ _ _ => w = max (-1) (min 1 (x.rat / scale)) ∧ miss = decide (tol < |w - x.rat / scale|)

/-- The number of pulses among those of M slots and the 512 rows of one column. -/
def columnPulses (M : Nat) (fires : Nat → Nat → Bool) : Nat :=
  ((Finset.range M ×ˢ Finset.range 512).filter fun x => fires x.1 x.2 = true).card

/-- The pulses of M slots that reach one cell. -/
def cellPulses (M : Nat) (fires : Nat → Bool) : Nat := ((List.range M).filter fires).length

/-- A weight after the pulses of M slots. -/
def afterSlots (fast : Bool) (M : Nat) (fires down : Nat → Bool) (w : Rat) : Rat :=
  (List.range M).foldl (fun w m => if fires m then pulsed fast (down m) w else w) w

/-- R262: a panel is as another but for its weights, its wear and its generators. -/
def SameButWeights (w x : Panel) : Prop :=
  x = { w with slow := x.slow, fast := x.fast, wear := x.wear, rowGen := x.rowGen, colGen := x.colGen }

end Sys2Proof.Claims

/-- R50, R51, R246, R260: one vector of AFWD or of ABWD. -/
def Sys2Proof.Claims.VectorReads : Prop :=
  ∀ (s : State) (k p : Nat) (o : ArrOp) (back : Bool) (q : BitVec 5) (x y : BitVec 3) (a1 a2 a3 : BitVec 1),
    AtUnit s k p o → s.nominal = true → o.instr = (if back then .abwd q x a1 y a2 a3 else .afwd q x a1 y a2 a3) → x ≠ y →
    let c := s.core k
    let w := c.panel p
    let v := o.params
    let f := (c.tile (4 * y.toNat)).fmt
    WithinRows v → WithinCols v → LegalPanel w → LegalQuad c (4 * y.toNat) f o.units →
    let drv (e : Nat) : Bool := if back then inCols v e else inRows v e
    let out (e : Nat) : Bool := if back then inRows v e else inCols v e
    let X (e : Nat) := (c.vecElem (4 * x.toNat) o.units e).1
    let W (i j : Nat) : Rat := if w.live i j then w.slowAt i j + parFp v 4 * w.fastAt i j else 0
    let unread : Prop := par v 5 = 1 ∧ ∀ e, drv e = true → (X e).isNonzero = false
    ∃ u o1, exec (.arrayUnit k p) s = .next u ∧ (u.core k).opOf p = some o1 ∧ o1.units = o.units + 1 ∧ (u.core k).panel p = w ∧
      (o1.nv = true ↔ o.nv = true ∨ ∃ e, drv e = true ∧ ((c.vecElem (4 * x.toNat) o.units e).2.nv = true ∨ (X e).isNan = true)) ∧
      (∀ n, n ≠ o.units → ∀ e, e < 512 → quadCode (u.core k) (4 * y.toNat) n e = quadCode c (4 * y.toNat) n e) ∧
      let Y (e : Nat) := quadCode (u.core k) (4 * y.toNat) o.units e
      let inOv : Prop := ∃ e, drv e = true ∧ (c.vecElem (4 * x.toNat) o.units e).2.ov = true
      (unread → (∀ e, e < 512 → Y e = 0) ∧ o1.count = o.count ∧ o1.sat = o.sat ∧ (o1.ov = true ↔ o.ov = true ∨ inOv)) ∧
      (¬ unread → ∃ (sx : Rat) (dn d an : Nat → Int) (r : Nat → Nat × Status),
        (par v 5 ≠ 1 → sx = parFp v 6) ∧
        (par v 5 = 1 → (∃ e, drv e = true ∧ (X e).isNonzero = true ∧ sx = |(X e).rat| / 127) ∧
          ∀ e, drv e = true → (X e).isNonzero = true → |(X e).rat| / 127 ≤ sx) ∧
        (∀ e, (drv e = false → d e = 0) ∧ (drv e = true →
          (∀ g, X e = .nan g → d e = 0) ∧ (∀ g, X e = .inf g → d e = if g then -127 else 127) ∧
          ∀ g m z, X e = .fin g m z → IsRne ((X e).rat / sx) (dn e) ∧ d e = max (-127) (min 127 (dn e)))) ∧
        (∀ e, out e = true → IsRne (((List.range 512).map fun i => (d i : Rat) * (if back then W e i else W i e)).sum / adcStep v) (an e)) ∧
        (∀ e, e < 512 → (out e = false → Y e = 0) ∧ (out e = true →
          (f = 6 → (Y e : Int) = adcCode (an e) % 65536) ∧
          (f = 1 →
            let z := adcCode (an e) * adcStep v * sx * w.scale * (if back then w.rowGain e else w.gain e)
            Rounds 1 0 true (decide (z < 0)) (z : ℝ) (r e) ∧ Y e = (r e).1))) ∧
        o1.count = o.count + ((List.range 512).filter fun e => out e && clips (an e)).length ∧
        (o1.sat = true ↔ o.sat = true ∨ (∃ e, out e = true ∧ clips (an e) = true) ∨
          ∃ e, drv e = true ∧ (∃ g m z, X e = .fin g m z) ∧ (dn e < -127 ∨ 127 < dn e)) ∧
        (o1.ov = true ↔ o.ov = true ∨ inOv ∨ f = 1 ∧ ∃ e, out e = true ∧ (r e).2.ov = true))

/-- R52, R55, R248, R249, R261: two vectors of AUPD, or the last one. -/
def Sys2Proof.Claims.PulseUpdates : Prop :=
  ∀ (s : State) (k p : Nat) (o : ArrOp) (q : BitVec 5) (x y : BitVec 3) (a1 a2 a3 : BitVec 1),
    AtUnit s k p o → s.nominal = true → o.instr = .aupd q x a1 y a2 a3 →
    let c := s.core k
    let w := c.panel p
    let v := o.params
    WithinRows v → WithinCols v → LegalPanel w → 0 ≤ parFp v 2 → 0 ≤ parFp v 3 →
    let M := par v 1 * min 2 (par v 0 - 2 * o.units)
    let at_ (m : Nat) := 2 * o.units + m / par v 1
    let X (n i : Nat) := (c.vecElem (4 * x.toNat) n i).1
    let D (n j : Nat) := (c.vecElem (4 * y.toNat) n j).1
    let fast : Bool := !parFlag v 1
    ∃ (u : State) (o1 : ArrOp) (qr qc : Nat → Nat → Nat), exec (.arrayUnit k p) s = .next u ∧ (u.core k).opOf p = some o1 ∧
      o1.units = o.units + 1 ∧ (∀ n i, PulseCode (parFp v 2) (X n i) (qr n i)) ∧ (∀ n j, PulseCode (parFp v 3) (D n j) (qc n j)) ∧
      let fires (m i j : Nat) : Bool :=
        inRows v i && !frozenRow v i && decide (slotByte (atSlot w.rowGen m) i < qr (at_ m) i) &&
        (inCols v j && !frozenCol v j && decide (slotByte (atSlot w.colGen m) j < qc (at_ m) j)) && (fast || w.live i j)
      let down (m i j : Nat) : Bool := ((X (at_ m) i).neg == (D (at_ m) j).neg) != parFlag v 0
      let z := (u.core k).panel p
      SameButWeights w z ∧ (∀ t, (u.core k).tile t = c.tile t) ∧ z.rowGen = atSlot w.rowGen M ∧ z.colGen = atSlot w.colGen M ∧
      (∀ i j, i < 512 → j < 512 →
        z.fastAt i j = (if fast then afterSlots true M (fires · i j) (down · i j) (w.fastAt i j) else w.fastAt i j) ∧
        z.slowAt i j = (if fast then w.slowAt i j else afterSlots false M (fires · i j) (down · i j) (w.slowAt i j)) ∧
        tget 0 z.wear (cellNo i j) = tget 0 w.wear (cellNo i j) + cellPulses M (fires · i j)) ∧
      o1.count = o.count + ((List.range 512).map fun j => columnPulses M (fires · · j)).sum

/-- R55, R247 to R249, R262: one column of AXFR. -/
def Sys2Proof.Claims.Transfers : Prop :=
  ∀ (s : State) (k p : Nat) (o : ArrOp) (q : BitVec 5) (a : BitVec 1),
    AtUnit s k p o → s.nominal = true → o.instr = .axfr q a →
    let c := s.core k
    let w := c.panel p
    let v := o.params
    WithinRows v → LegalPanel w → 0 < par v 12 → 0 ≤ parFp v 10 →
    let col := (par v 8 + o.units) % 512
    let M := par v 1
    ∃ (u : State) (o1 : ArrOp) (n : Nat → Int) (qr : Nat → Nat), exec (.arrayUnit k p) s = .next u ∧ (u.core k).opOf p = some o1 ∧
      o1.units = o.units + 1 ∧
      let shown (i : Nat) : Rat := adcCode (n i) * adcStep v * w.rowGain i / 127 - w.symmetry col
      let moves (i : Nat) : Rat := if |shown i| < parFp v 11 then 0 else shown i
      (∀ i, i < 512 → IsRne (127 * w.fastAt i col / adcStep v) (n i) ∧ ∃ z, IsRne (|moves i| * parFp v 10 * 256) z ∧ (qr i : Int) = min 256 z) ∧
      let fires (m i : Nat) : Bool :=
        inRows v i && !frozenRow v i && !frozenCol v col && decide (slotByte (atSlot w.rowGen m) i < qr i) && w.live i col
      let z := (u.core k).panel p
      SameButWeights w z ∧ (∀ t, (u.core k).tile t = c.tile t) ∧ z.rowGen = atSlot w.rowGen M ∧ z.colGen = atSlot w.colGen M ∧
      (∀ i, i < 512 →
        z.slowAt i col = afterSlots false M (fires · i) (fun _ => !decide (0 < moves i)) (w.slowAt i col) ∧
        z.fastAt i col =
          (if parFlag v 2 then afterSlots true M (fires · i) (fun _ => decide (0 < moves i)) (w.fastAt i col) else w.fastAt i col) ∧
        tget 0 z.wear (cellNo i col) = tget 0 w.wear (cellNo i col) + (if parFlag v 2 then 2 else 1) * cellPulses M (fires · i)) ∧
      (∀ i j, i < 512 → j < 512 → j ≠ col → z.fastAt i j = w.fastAt i j ∧ z.slowAt i j = w.slowAt i j ∧
        tget 0 z.wear (cellNo i j) = tget 0 w.wear (cellNo i j)) ∧
      o1.count = o.count + columnPulses M fires

/-- R263, R264, R265: a round of pairs of ACAL; the last pair of a column, whose symmetry point is +0 in the nominal model, as row 0 of Y
is once all are read; and a column of ACAL or AZERO driven to its symmetry point. (That a nominal read of ACAL is 0, and SP_c +0, wherever
the cells began, is the reading of R250 and R265 that notes/assumptions/65 deduces; how the pulses and reads of ACAL fall into stop units
is log 90.) -/
def Sys2Proof.Claims.Calibrations : Prop :=
  ∀ (s : State) (k p : Nat) (o : ArrOp), AtUnit s k p o → s.nominal = true →
    let c := s.core k
    let w := c.panel p
    let v := o.params
    WithinCols v → LegalPanel w →
    let pairs (n : Nat) (x : Rat) : Rat := Nat.iterate (fun x => pulsed true true (pulsed true false x)) n x
    let only (col : Nat) (z : Panel) : Prop :=
      (∀ i j, i < 512 → j < 512 → z.slowAt i j = w.slowAt i j ∧ (j ≠ col → z.fastAt i j = w.fastAt i j)) ∧
        z.rowGen = w.rowGen ∧ z.colGen = w.colGen ∧ z.mask = w.mask ∧ z.sw = w.sw
    let drives (col : Nat) : Prop := ∃ (u : State) (o1 : ArrOp) (miss : Nat → Bool), exec (.arrayUnit k p) s = .next u ∧
      (u.core k).opOf p = some o1 ∧ o1.units = o.units + 1 ∧ (∀ t, (u.core k).tile t = c.tile t) ∧
      (let z := (u.core k).panel p
      only col z ∧ z.sp = w.sp ∧
        ∀ i, i < 512 → Driven (parFp v 21) (codeVal 1 (tget 0 w.sp col).toNat) 1 (z.fastAt i col) (miss i)) ∧
      o1.count = o.count + ((List.range 512).filter miss).length
    (∀ q a, o.instr = .azero q a → o.units < par v 9 → drives (par v 8 + o.units)) ∧
    ∀ q y a b, o.instr = .acal q y a b →
      (o.units < 64 → ∃ u o1, exec (.arrayUnit k p) s = .next u ∧ (u.core k).opOf p = some o1 ∧ o1.units = o.units + 1 ∧
        o1.count = o.count ∧ (∀ t, (u.core k).tile t = c.tile t) ∧
        let z := (u.core k).panel p
        SameButWeights w z ∧ z.rowGen = w.rowGen ∧ z.colGen = w.colGen ∧
        ∀ i j, i < 512 → j < 512 → z.slowAt i j = w.slowAt i j ∧
          z.fastAt i j = if inCols v j then pairs (if o.units = 63 then par v 1 - 1 else par v 1) (w.fastAt i j) else w.fastAt i j) ∧
      (64 ≤ o.units → o.units < 64 + par v 9 → LegalQuad c (4 * y.toNat) 1 0 → o.kept = [] ∨ o.kept = List.replicate 512 0 →
        ∃ u o1, exec (.arrayUnit k p) s = .next u ∧ (u.core k).opOf p = some o1 ∧ o1.units = o.units + 1 ∧
          o1.count = o.count ∧ o1.kept = List.replicate 512 0 ∧
          (let col := par v 8 + (o.units - 64)
          let z := (u.core k).panel p
          only col z ∧ (∀ i, i < 512 → z.fastAt i col = pairs 1 (w.fastAt i col)) ∧ tget 0 z.sp col = 0 ∧
            ∀ j, j ≠ col → tget 0 z.sp j = tget 0 w.sp j) ∧
          ∀ n e, e < 512 → quadCode (u.core k) (4 * y.toNat) n e =
            if n = 0 ∧ o.units + 1 = 64 + par v 9 then 0 else quadCode c (4 * y.toNat) n e) ∧
      (64 + par v 9 ≤ o.units → o.units < 64 + 2 * par v 9 → drives (par v 8 + (o.units - 64 - par v 9)))

/-- R247, R263, R266, R267: one row of AASY, and one of APROG. -/
def Sys2Proof.Claims.RowReadsAndWrites : Prop :=
  ∀ (s : State) (k p : Nat) (o : ArrOp), AtUnit s k p o → s.nominal = true →
    let c := s.core k
    let w := c.panel p
    let v := o.params
    let i := par v 13 + o.units
    let fast := parFlag v 3
    WithinRows v → LegalPanel w →
    (∀ q y a b, o.instr = .aasy q y a b → 0 < par v 12 → LegalQuad c (4 * y.toNat) 1 o.units → ∃ (u : State) (o1 : ArrOp) (n : Nat → Int)
      (r : Nat → Nat × Status), exec (.arrayUnit k p) s = .next u ∧ (u.core k).opOf p = some o1 ∧ o1.units = o.units + 1 ∧
        (u.core k).panel p = w ∧
        let W (j : Nat) : Rat :=
          if fast then w.fastAt i j else w.slowAt i j + (if parFlag v 4 then parFp v 4 * w.fastAt i j else 0)
        (∀ j, j < 512 → IsRne (127 * W j / adcStep v) (n j) ∧
          let z := adcCode (n j) * adcStep v * w.scale * w.gain j / 127
          Rounds 1 0 true (decide (z < 0)) (z : ℝ) (r j)) ∧
        (∀ m e, e < 512 → quadCode (u.core k) (4 * y.toNat) m e = if m = o.units then (r e).1 else quadCode c (4 * y.toNat) m e) ∧
        o1.count = o.count + par v 12 * ((List.range 512).filter fun j => clips (n j)).length ∧
        (o1.sat = true ↔ o.sat = true ∨ ∃ j, j < 512 ∧ clips (n j) = true) ∧
        (o1.ov = true ↔ o.ov = true ∨ ∃ j, j < 512 ∧ (r j).2.ov = true)) ∧
    (∀ q x a b, o.instr = .aprog q x a b → WithinCols v → o.units < par v 14 → ∃ (u : State) (o1 : ArrOp) (miss : Nat → Bool),
      exec (.arrayUnit k p) s = .next u ∧ (u.core k).opOf p = some o1 ∧ o1.units = o.units + 1 ∧ (∀ t, (u.core k).tile t = c.tile t) ∧
        let z := (u.core k).panel p
        let goal (j : Nat) : Val := if !fast && !w.live i j then .fin false 0 0 else (c.vecElem (4 * x.toNat) o.units j).1
        SameButWeights w z ∧ z.rowGen = w.rowGen ∧ z.colGen = w.colGen ∧
        (∀ j, inCols v j = true → Driven (parFp v 21) (goal j) w.scale (if fast then z.fastAt i j else z.slowAt i j) (miss j)) ∧
        (∀ m j, m < 512 → j < 512 → (m ≠ i ∨ inCols v j = false ∨ fast = false → z.fastAt m j = w.fastAt m j) ∧
          (m ≠ i ∨ inCols v j = false ∨ fast = true → z.slowAt m j = w.slowAt m j)) ∧
        o1.count = o.count + ((List.range 512).filter fun j => inCols v j && miss j).length)

/-- R251, R269: one column of ARGRW: the groups that it swaps, the cells of each, its new live set and its nibble of the plane. -/
def Sys2Proof.Claims.Regrowth : Prop :=
  ∀ (s : State) (k p : Nat) (o : ArrOp) (q : BitVec 5) (a : BitVec 1), AtUnit s k p o → s.nominal = true → o.instr = .argrw q a →
    let c := s.core k
    let w := c.panel p
    let v := o.params
    let col := par v 8 + o.units
    WithinCols v → LegalPanel w → o.units < par v 9 → 0 < par v 12 → w.maskHome + 32768 ≤ c.scratchSize →
    ∃ (u : State) (o1 : ArrOp) (na nw : Nat → Int) (swaps : Nat → Bool), exec (.arrayUnit k p) s = .next u ∧
      (u.core k).opOf p = some o1 ∧ o1.units = o.units + 1 ∧ (∀ t, (u.core k).tile t = c.tile t) ∧
      (∀ i, i < 512 → IsRne (127 * w.fastAt i col / adcStep v) (na i) ∧ IsRne (127 * w.slowAt i col / adcStep v) (nw i)) ∧
      let above (i : Nat) : Rat := adcCode (na i) * adcStep v * w.rowGain i / 127 - w.symmetry col
      let weight (i : Nat) : Rat := |adcCode (nw i) * adcStep v * w.rowGain i / 127|
      let z := (u.core k).panel p
      let nibble (d : Core) (x h : Nat) : Nat := (tget 0 d.scratch x).toNat / 16 ^ h % 16
      (∀ g, g < 128 →
        let live := liveRows (w.maskCode g col)
        (swaps g = true → frozenCol v col = false ∧ (∀ r, r < 4 → frozenRow v (4 * g + r) = false) ∧ z.maskCode g col < 6) ∧
        (swaps g = false → z.maskCode g col = w.maskCode g col ∧
          ∀ r, r < 4 → z.slowAt (4 * g + r) col = w.slowAt (4 * g + r) col ∧ z.fastAt (4 * g + r) col = w.fastAt (4 * g + r) col) ∧
        ∃ pr lr, pr < 4 ∧ pr ∉ live ∧ lr ∈ live ∧
          (∀ r, r < 4 → r ∉ live → |above (4 * g + r)| < |above (4 * g + pr)| ∨ |above (4 * g + r)| = |above (4 * g + pr)| ∧ pr ≤ r) ∧
          (∀ r, r ∈ live → weight (4 * g + lr) < weight (4 * g + r) ∨ weight (4 * g + r) = weight (4 * g + lr) ∧ lr ≤ r) ∧
          (frozenCol v col = false → (∀ r, r < 4 → frozenRow v (4 * g + r) = false) →
            (swaps g = true ↔ weight (4 * g + lr) + parFp v 18 < |above (4 * g + pr)|)) ∧
          (swaps g = true → (∀ r, r < 4 → (r ∈ liveRows (z.maskCode g col) ↔ r = pr ∨ r ∈ live ∧ r ≠ lr)) ∧
            z.slowAt (4 * g + lr) col = 0 ∧ z.slowAt (4 * g + pr) col = max (-1) (min 1 (parFp v 10 * above (4 * g + pr))) ∧
            z.fastAt (4 * g + pr) col = max (-1) (min 1 (w.symmetry col)) ∧
            ∀ r, r < 4 → (r ≠ pr → z.fastAt (4 * g + r) col = w.fastAt (4 * g + r) col) ∧
              (r ≠ pr → r ≠ lr → z.slowAt (4 * g + r) col = w.slowAt (4 * g + r) col))) ∧
      (∀ i j, i < 512 → j < 512 → j ≠ col →
        z.slowAt i j = w.slowAt i j ∧ z.fastAt i j = w.fastAt i j ∧ z.maskCode (i / 4) j = w.maskCode (i / 4) j) ∧
      (∀ x h, h < 2 → nibble (u.core k) x h =
        if w.maskHome + 64 * col ≤ x ∧ x < w.maskHome + 64 * col + 64 ∧ swaps (2 * (x - (w.maskHome + 64 * col)) + h) = true
        then z.maskCode (2 * (x - (w.maskHome + 64 * col)) + h) col else nibble c x h) ∧
      o1.count = o.count + ((List.range 128).filter swaps).length

/-- R251, R268, R271: AMASK takes the codes of a plane whose nibbles are all below 6, and traps at the first that is not, with the mask
as it was; ASTAT writes the panel's health. -/
def Sys2Proof.Claims.MasksAndHealth : Prop :=
  ∀ (s : State) (k p : Nat) (o : ArrOp), AtUnit s k p o →
    let c := s.core k
    let w := c.panel p
    let nibble (n : Nat) : Nat := (tget 0 c.scratch (o.plane + n / 2)).toNat / 16 ^ (n % 2) % 16
    (∀ q l a, o.instr = .amask q l a → TableWf 0 c.scratch →
      ((∀ n, n < 65536 → nibble n < 6) → ∃ u o1, exec (.arrayUnit k p) s = .next u ∧ (u.core k).opOf p = some o1 ∧ o1.ready = true ∧
        o1.count = 131072 ∧ (∀ g j, g < 128 → j < 512 → ((u.core k).panel p).maskCode g j = nibble (128 * j + g)) ∧
        ((u.core k).panel p).maskBound = true ∧ ((u.core k).panel p).maskHome = o.plane ∧
        (∀ i j, ((u.core k).panel p).slowAt i j = w.slowAt i j ∧ ((u.core k).panel p).fastAt i j = w.fastAt i j) ∧ SameMemory s u) ∧
      (∀ n, n < 65536 → 6 ≤ nibble n → (∀ m, m < n → nibble m < 6) → exec (.arrayUnit k p) s =
        .next ((s.setCore k (c.dropOp o)).raiseAt k .a 0x0D (word (p + 256 * 7 + 2 ^ 32 * (n / 2))) o.hdr o.off) ∧
        (c.dropOp o).panels = c.panels ∧ (c.dropOp o).opOf p = none)) ∧
    (∀ q y a b, o.instr = .astat q y a b → s.nominal = true → TableWf 0 w.wear → LegalTile (c.tile y.toNat) →
      (c.tile y.toNat).fmt ∈ [5, 7] → 8 ≤ (c.tile y.toNat).cols → ∃ u o1 big, exec (.arrayUnit k p) s = .next u ∧
        (u.core k).opOf p = some o1 ∧ o1.ready = true ∧ o1.count = o.count ∧ (u.core k).panel p = w ∧
        (∀ x, tget 0 w.wear x ≤ big) ∧ (∃ x, tget 0 w.wear x = big) ∧
        let one (b : Bool) : Nat := if b then 1 else 0
        let health := [one w.calibrated + 2 * one w.spare + 4 * one w.maskBound + 8 * one w.advise, w.sw.toNat, big / 1024 % 2 ^ 32,
          big / 1024 / 2 ^ 32 % 2 ^ 32, w.rowGen.toNat % 2 ^ 32, w.rowGen.toNat / 2 ^ 32, w.colGen.toNat % 2 ^ 32, w.colGen.toNat / 2 ^ 32]
        ∀ i j, i < (c.tile y.toNat).rows → j < (c.tile y.toNat).cols → ((u.core k).tile y.toNat).code i j =
          if i = 0 ∧ j < 8 then health.getD j 0 else (c.tile y.toNat).code i j)

/-- R246 to R252, R260 and R266: what the reading array instructions compute in the nominal model, and AMASK and ASTAT. -/
def Obligations.ArrayReads : Prop :=
  Claims.VectorReads ∧ Claims.MasksAndHealth

/-- R248 to R250 and R261 to R269: what the pulsing and programming array instructions, and the assay, do in the nominal model. That ACAL's
nominal reads are 0, and its symmetry points +0, wherever the cells began, is the model's reading (log 65). -/
def Obligations.ArrayWrites : Prop :=
  Claims.PulseUpdates ∧ Claims.Transfers ∧ Claims.Calibrations ∧ Claims.RowReadsAndWrites ∧ Claims.Regrowth

/-! ### The hoist -/

namespace Sys2Proof.Claims

/-- The hoist instructions of group HO with the tile, whether it is loaded or consumed, the layout, the coordinate and the token
register, and the spaces of R289 to R292. -/
def hoForms (t : BitVec 5) (v : BitVec 2) (w : BitVec 1) (l : BitVec 8) (c r : Reg) : List (Instr × Option Nat × Bool × List Nat) :=
  [(.hld t l c r, some t.toNat, true, [0, 1, 2, 3, 4, 6]), (.hst t v l c r, some t.toNat, false, [0, 1, 2, 3, 4, 6]),
    (.hsta t v l c r, some t.toNat, false, [0, 1, 2, 4, 5]), (.hgth t l c r, some t.toNat, true, [0, 1, 2, 4]),
    (.hsct t w l c r, some t.toNat, false, [0, 1, 2, 4]), (.hpf l c r, none, true, [4])]

/-- A copy enters the hoist: the next ordinal, at the end of the queue, and the stream goes on. -/
def copies (s : State) (k : Nat) (i : Instr) (coords second : Word) (token : Nat) : Out :=
  .next (((s.setCore k { s.core k with
    copies := (s.core k).copies ++ [⟨i, coords, second, token, (s.core k).ordinal + 1, false, 0, [], none, false, false,
      (s.pos k .h).hdr, (s.pos k .h).off, s.order, s.order⟩],
    ordinal := (s.core k).ordinal + 1 }).tick).retire k .h 2)

end Sys2Proof.Claims

/-- R283 and R284: a hoist instruction whose tile, layouts and registers pass their checks enters the hoist, up to sixteen copies; a
seventeenth, of any of the nine forms, waits; a tile at or above the count raises cause 0x05. -/
def Obligations.HoistIssue : Prop :=
  ∀ (s : State) (k : Nat) (t : BitVec 5) (v : BitVec 2) (w : BitVec 1) (l l2 : BitVec 8) (c r : Reg),
    s.turn = some (k, .h) →
    let e := s.core k
    let room := e.copies.length < 16
    (∀ i tile ld spaces y, (i, tile, ld, spaces) ∈ hoForms t v w l c r →
      (∀ n, tile = some n → n < e.ntiles) → s.layout k l.toNat ld (!ld) false = .ok y → y.space ∈ spaces → (y.space = 3 → y.base < 64) →
      s.anyPending k .h [c, r] = false →
      (room → exec i s = copies s k i (s.reg k .h c) (s.reg k .h (c + 1)) r.toNat) ∧
      (¬ room → exec i s = .next (s.waitOn k .h .unit))) ∧
    (∀ i n ld spaces, (i, some n, ld, spaces) ∈ hoForms t v w l c r → e.ntiles ≤ n →
      exec i s = .next (s.raise k .h 0x05 (word (n + 256 * e.ntiles)))) ∧
    let enters (i : Instr) : Prop :=
      (room → exec i s = copies s k i (s.reg k .h c) (s.reg k .h (c + 1)) (s.reg k .h (c + 2)).toNat) ∧
      (¬ room → exec i s = .next (s.waitOn k .h .unit))
    ∀ y, s.anyPending k .h [c, c + 1, c + 2] = false → (s.reg k .h (c + 2)).toNat < 32 →
      s.anyPending k .h [BitVec.ofNat 5 (s.reg k .h (c + 2)).toNat] = false → s.layout k l.toNat false true false = .ok y →
      (y.space = 3 → y.base < 64) →
      (y.space ∈ [0, 1, 2, 3, 4, 6] → enters (.hfill l c)) ∧
      ∀ z, s.layout k l2.toNat true false false = .ok z → (z.space = 3 → z.base < 64) →
        (y.space ∈ [0, 1, 2, 3, 4, 6] → z.space ∈ [0, 1, 2, 3, 4, 6] → enters (.hcpy l l2 c)) ∧
        (y.space = 5 → z.space ∈ [0, 1, 2, 3, 4] → enters (.hsend l l2 c))

/-- R283, R285 and R286: the oldest copy starts once its checks pass, or ends with status 6 and the cause of the check; a copy that has
ended writes its token, the ordinal with the status above it, and leaves the hoist. (One of those checks is the model's choice: a tile
that a CARVE has removed since the issue gives cause 0x05, log 77.) -/
def Sys2Proof.Claims.HoistCopies : Prop :=
  ∀ (s : State) (k : Nat) (p : Copy) (rest : List Copy), (s.core k).copies = p :: rest →
    let c := s.core k
    (p.started = false → p.status = none → s.unitsRun k = true → c.accessesBefore .h p.issued = false →
      c.accepts (copyUses p.instr) = true →
      (s.copyChecks k p = none → ∃ u q, exec (.hoistCopyStart k) s = .next u ∧ (u.core k).copies = q :: rest ∧ q.started = true ∧
        q.instr = p.instr ∧ q.token = p.token ∧ q.ordinal = p.ordinal ∧ q.chunk = p.chunk ∧ SameMemory s u ∧
        ∀ w ∈ copyUses p.instr, ((u.core k).tile w.tile).claimed = true) ∧
      (∀ cause info, s.copyChecks k p = some (cause, info) →
        exec (.hoistCopyStart k) s = .next ((s.setCore k { c with copies := { p with status := some 6 } :: rest }).raiseAt k .h cause info
          p.hdr p.off))) ∧
    (∀ st, p.status = some st → s.completes k = true → c.raised = none →
      ∃ u, exec (.hoistCopyComplete k) s = .next u ∧ (u.core k).copies.map (fun q => q.instr) = rest.map (fun q => q.instr) ∧
        (∀ r, u.reg k .h r = if r ≠ 0 ∧ r = BitVec.ofNat 5 p.token then word (p.ordinal.toNat + 2 ^ 32 * st) else s.reg k .h r) ∧
        SameMemory s u)

/-- R285, R292 and R293: a chunk of HFILL of a one-byte format into core scratch writes its value into each element in bounds and into no
other byte; a chunk of HPF changes no memory; each moves the copy to its next chunk. -/
def Sys2Proof.Claims.HoistChunks : Prop :=
  ∀ (s : State) (k : Nat) (p : Copy) (rest : List Copy), (s.core k).copies = p :: rest → p.started = true → p.status = none →
    p.stopped = false → s.unitsRun k = true →
    (∀ d c, p.instr = .hfill d c →
      let y := s.rawLayout k d.toNat
      y.space = 0 → y.efmt = 2 ∨ y.efmt = 4 →
      (∀ e ∈ p.extRun y y p.coords, ∀ a, e.addr = some a → a < (s.core k).scratchSize) →
      ∃ u q, exec (.hoistChunk k) s = .next u ∧ (u.core k).copies = q :: rest ∧ q.chunk = p.chunk + 1 ∧
        ∀ a, ((∃ e ∈ p.extRun y y p.coords, e.addr = some a) → tget 0 (u.core k).scratch a = p.second.setWidth 8) ∧
          ((∀ e ∈ p.extRun y y p.coords, e.addr ≠ some a) → tget 0 (u.core k).scratch a = tget 0 (s.core k).scratch a)) ∧
    (∀ l c r, p.instr = .hpf l c r →
      ∃ u q, exec (.hoistChunk k) s = .next u ∧ (u.core k).copies = q :: rest ∧ q.chunk = p.chunk + 1 ∧ SameMemory s u)

/-! ### The data that chunks move -/

namespace Sys2Proof.Claims

/-- The copy at the head of the hoist of core k may perform its next chunk. -/
def AtChunk (s : State) (k : Nat) (p : Copy) (rest : List Copy) : Prop :=
  (s.core k).copies = p :: rest ∧ p.started = true ∧ p.status = none ∧ p.stopped = false ∧ s.unitsRun k = true

/-- The copy has gone on to its next chunk. -/
def NextChunk (u : State) (k : Nat) (p : Copy) (rest : List Copy) : Prop :=
  ∃ q, (u.core k).copies = q :: rest ∧ q.instr = p.instr ∧ q.chunk = p.chunk + 1 ∧ q.token = p.token

/-- R279: an element carried from one format to another, and the status that this raises. -/
def converted (src dst code : Nat) : Nat × Status :=
  if src = 1 ∧ dst = 0 ∨ src = 0 ∧ dst = 1 then roundTo dst 0 true (codeVal src code) else (code, {})

/-- R73: the fill value of a layout. -/
def fillOf (y : Layout) : Nat := if y.fill then [0x7FC00000, 0x7FC0, 0x7F].getD y.efmt 0 else 0

/-- R279 and R280: what a load takes for an element: its code as the core reads it, or the fill value out of bounds. -/
def loaded (s : State) (k : Nat) (y : Layout) (e : Put) : Nat :=
  let v := leNat (e.locs.map (s.coreGet k))
  if e.spot.addr = none then fillOf y else if y.efmt = 3 then v / (if e.spot.hi then 16 else 1) % 16 else v

/-- R280: the locations of a row's elements and trailer. -/
def rowPlaces (q : PutRow) : List Loc := (q.puts.flatMap fun e => e.locs) ++ ((q.trl.map Prod.snd).getD [])

/-- R236, R282: the sixteen bytes of the trailer of a row of codes. -/
def trailerBytes (y : Layout) (row : Nat) (codes : List Nat) (scales : List Byte) : List Byte :=
  let sb := if y.efmt = 2 ∨ y.efmt = 3 then scales else []
  leBytes 4 (crc32c (packCodes y.efmt codes ++ sb)) ++ leBytes 4 (leNat sb) ++
    leBytes 4 (y.efmt + 8 * (y.ext.headD 0 - 1) + 2 ^ 10 * row) ++ leBytes 4 0

/-- R282: the trailer read with a row passes its check. -/
def TrailerPasses (y : Layout) (codes : List Nat) (raw : List Byte) : Prop :=
  let e (n : Nat) : Nat := leNat ((raw.drop (4 * n)).take 4)
  e 0 = crc32c (packCodes y.efmt codes ++ if y.efmt = 2 ∨ y.efmt = 3 then (raw.drop 4).take 4 else []) ∧
    e 2 % 2 ^ 10 = y.efmt + 8 * (y.ext.headD 0 - 1) ∧ e 2 / 2 ^ 17 = 0 ∧ e 3 = 0

/-- R288: a byte-mode phaser of the partition to which a layout is bound has counted some more bytes, another none. -/
def Counts (s u : State) (k : Nat) (y : Layout) (n : Nat) : Prop :=
  (u.phaser (clusterOf k) y.bind).arrived = (s.phaser (clusterOf k) y.bind).arrived +
    if s.phaserOwned (clusterOf k) (s.core k).part y.bind = true ∧ (s.phaser (clusterOf k) y.bind).bytes = true then n else 0

/-- R73, R279: entry TID of a layout, in the table of the arming that fired the point (log 82), has taken some status bits and dropped
elements, and nothing else. -/
def StatsTake (s u : State) (pt : Point) (y : Layout) (x : Status) (dropped : Nat) : Prop :=
  (s.record pt.recNo).arming = pt.arming →
  let z : Stat := ⟨false, false, false, false, 0, 0⟩
  let e := tget z (s.record pt.recNo).stats y.tid
  tget z (u.record pt.recNo).stats y.tid = { e with
    ov := e.ov || x.ov, nv := e.nv || x.nv, sat := e.sat || x.sat, drops := if dropped = 0 then e.drops else min (2 ^ 64 - 1) (e.drops + dropped) }

/-- R140: the byte at an address of one of the three scratch spaces. -/
def scratchByte (k space a : Nat) : Loc :=
  match space with
  | 0 => .scratch k a
  | 1 => .scratch (twinOf k) a
  | _ => .cluster (clusterOf k) a

/-- The in-bounds elements of some rows. -/
def held (qs : List PutRow) : List Put := (qs.flatMap fun q => q.puts).filter fun e => e.spot.addr.isSome

/-- The elements out of bounds of some. -/
def lost (l : List Put) : Nat := (l.filter fun e => e.spot.addr.isNone).length

/-- Elements of a format written at their homes, no two of them at one place: each holds its code, a nibble beside it what the core saw
there; no other byte has changed. `more` are bytes written beside them. -/
def Written (s u : State) (k f : Nat) (l : List (Put × Nat)) (more : List (Loc × Byte)) : Prop :=
  let key := s.keyOf k
  let byte (e : Put) : Nat := leNat (e.locs.map (u.homeGet key))
  (∀ x ∈ l, f ≠ 3 → x.1.locs.map (u.homeGet key) = leBytes x.1.locs.length x.2) ∧
  (∀ x ∈ l, f = 3 → byte x.1 / (if x.1.spot.hi then 16 else 1) % 16 = x.2 % 16 ∧
    ((∀ z ∈ l, z.1.locs = x.1.locs → z.1.spot.hi = x.1.spot.hi) →
      byte x.1 / (if x.1.spot.hi then 1 else 16) % 16 = leNat (x.1.locs.map (s.coreGet k)) / (if x.1.spot.hi then 1 else 16) % 16)) ∧
  (∀ x ∈ more, u.homeGet key x.1 = x.2) ∧ SameOutside key ((l.flatMap fun x => x.1.locs) ++ more.map Prod.fst) s u

/-- No sector is reached both through a page with the system-atomic attribute and through another. -/
def Unmixed (ls : List Loc) : Prop := ∀ a b, Loc.direct a ∈ ls → Loc.hbm b ∈ ls → a / 32 ≠ b / 32

/-- No two elements, and no bytes beside them, share a place: two nibbles of one byte are two places. -/
def Distinct (f : Nat) (l : List Put) (more : List Loc) : Prop :=
  if f = 3 then (l.map fun e => (e.locs.map Loc.home, e.spot.hi)).Nodup ∧ Apart more ∧
    (∀ e ∈ l, ∀ a ∈ e.locs, ∀ b ∈ more, a.home ≠ b.home) ∧ ∀ e ∈ l, ∀ z ∈ l, e.locs.map Loc.home = z.locs.map Loc.home → e.locs = z.locs
  else Apart ((l.flatMap fun e => e.locs) ++ more)

/-- The need of a read of a copy, made at the arrival number of the copy's issue (R146). -/
def readNeed (p : Copy) : Need := ⟨true, false, false, false, some p.issued⟩

/-- The need of a write of a copy. -/
def writeNeed (p : Copy) : Need := ⟨false, true, false, false, some p.issued⟩

/-- Codes that stand in order in the bytes of a bank (R142). -/
def bankCode (f : Nat) (bs : List Byte) (n : Nat) : Nat :=
  let size := [4, 2, 1, 1, 1, 4, 2, 4].getD f 4
  if f = 3 then (bs.getD (n / 2) 0).toNat / 16 ^ (n % 2) % 16 else leNat ((bs.drop (n * size)).take size)

end Sys2Proof.Claims

/-- R73: the indices of an element, its bounds and its address. -/
def Sys2Proof.Claims.LayoutAddress : Prop :=
  ∀ (y : Layout) (coords : Word) (o : List Int),
    let idx (n : Nat) : Int := (BitVec.ofNat 16 (coords.toNat / 2 ^ (16 * n))).toInt * (y.stepk.getD n 0 : Nat) + o.getD n 0
    let sum : Int := ((List.range (y.ndim + 1)).map fun n =>
      if n = 0 ∧ y.efmt = 3 then idx 0 / 2 else idx n * y.stride.getD n 0).sum
    let a : BitVec 57 := BitVec.ofInt 57 (y.base + sum)
    y.ndim < 4 → y.swz < 256 →
    (y.inBounds (y.index coords o) = true ↔ ∀ n, n ≤ y.ndim → 0 ≤ idx n ∧ idx n < (y.ext.getD n 0 : Nat)) ∧
    y.address (y.index coords o) = (a ^^^ (((a >>> 13) &&& BitVec.ofNat 57 y.swz) <<< 5)).toNat

/-- R73, R278, R285, R291, R293: the rows of a chunk of a tile copy, and the elements of a chunk of a copy between layouts, with their
places. -/
def Sys2Proof.Claims.ChunkElements : Prop :=
  ∀ (p : Copy) (y d : Layout) (t : Tile) (coords : Word),
    let place (y : Layout) (i j : Nat) (idx : List Int) : Spot :=
      if y.inBounds idx then ⟨i, j, some (if y.space = 5 then y.address idx % 2 ^ 38 else y.address idx),
        y.efmt == 3 && decide (idx.getD 0 0 % 2 = 1)⟩ else ⟨i, j, none, false⟩
    let turned : Bool := match p.instr with
      | .hst _ v _ _ _ => v.toNat % 2 == 1
      | .hsta _ v _ _ _ => v.toNat % 2 == 1
      | _ => false
    let listed : Prop := (∃ a b c d, p.instr = .hgth a b c d) ∨ ∃ a b c d e, p.instr = .hsct a b c d e
    let len := if turned then t.rows else t.cols
    let size := (len * fmtBits t.fmt + 7) / 8
    ((∀ a b c, p.instr ≠ .hcpy a b c ∧ p.instr ≠ .hsend a b c) ∧ (∀ a b, p.instr ≠ .hfill a b) → LegalTile t →
      ∃ n, 0 < n ∧ n * size ≤ 4096 ∧ 4096 < (n + 1) * size ∧ p.chunkRows y t =
        ((List.range (if turned then t.cols else t.rows)).filter fun r => decide (p.chunk * n ≤ r) && decide (r < (p.chunk + 1) * n)).map fun r =>
          (r, (List.range len).map fun e =>
            let i : Nat := if turned then e else r
            let j : Nat := if turned then r else e
            let idx := y.index p.coords (if turned then [(i : Int), (j : Int)] else [(j : Int), (i : Int)])
            place y i j (if listed then [idx.getD 0 0, p.index.getD i 0] else idx))) ∧
    (d.ndim < 4 → d.ext.length = 4 →
      let total := ((d.ext.take (d.ndim + 1))).prod
      let n := 32768 / fmtBits d.efmt
      p.extRun d y coords = ((List.range total).filter fun e => decide (p.chunk * n ≤ e) && decide (e < (p.chunk + 1) * n)).map fun e =>
        place y 0 e (y.index coords ((List.range (d.ndim + 1)).map fun m =>
          ((e / (d.ext.take m).prod % d.ext.getD m 0 : Nat) : Int))))

/-- R140, R141: where the elements of a run live in the three scratch spaces. -/
def Sys2Proof.Claims.ScratchPlaces : Prop :=
  ∀ (s : State) (k : Nat) (y : Layout) (need : Need) (es : List Spot),
    let n := [4, 2, 1, 1, 1, 4, 2, 4].getD y.efmt 4
    y.space ≤ 2 →
    (∀ e ∈ es, ∀ a, e.addr = some a → (y.space = 0 → a + n ≤ (s.core k).scratchSize) ∧
      (y.space = 1 → a + n ≤ (s.core (twinOf k)).scratchSize) ∧ (y.space = 2 → (s.cluster (clusterOf k)).scratchBanks a n = true)) →
    s.placeRun k y need es = (s, .ok (es.map fun e => ⟨e, match e.addr with
      | some a => (List.range n).map fun b => scratchByte k y.space (a + b)
      | none => []⟩))

/-- R279 to R282, R285, R287, R288, R289, R291: a chunk of HLD or HGTH from memory whose rows have places and no error writes every
element of its rows, converted, with the scale codes of a row's trailer or 127; a trailer that fails its check, or an error, in the first
row ends the copy with status 4 or 5 and its trap. -/
def Sys2Proof.Claims.HoistLoads : Prop :=
  ∀ (s s1 : State) (k : Nat) (p : Copy) (rest : List Copy) (tile : BitVec 5) (l : BitVec 8) (c r : Reg) (qs : List PutRow),
    AtChunk s k p rest → p.instr = .hld tile l c r ∨ p.instr = .hgth tile l c r →
    let y := s.rawLayout k l.toNat
    let t := (s.core k).tile tile.toNat
    LegalTile t → y.space ≠ 3 → s.placeRows k p y (readNeed p) (p.chunkRows y t) = (s1, .ok qs) →
    let codes (q : PutRow) : List Nat := q.puts.map fun e => if e.spot.addr = none then 0 else loaded s k y e
    let bad (q : PutRow) : Prop := ∃ x ∈ rowPlaces q, s.readBad k x = true
    let passes (q : PutRow) : Prop := ∀ a ls, q.trl = some (a, ls) → TrailerPasses y (codes q) (ls.map (s.coreGet k))
    let ends (s2 : State) (status cause : Nat) (info : Word) : Prop := exec (.hoistChunk k) s =
      .next ((s2.setCore k { s2.core k with copies := { p with status := some status } :: rest }).raiseAt k .h cause info p.hdr p.off)
    ((∀ q ∈ qs, ¬ bad q ∧ passes q) → Unmixed (qs.flatMap rowPlaces) →
      ∃ u, exec (.hoistChunk k) s = .next u ∧ NextChunk u k p rest ∧ SameMemory s u ∧
      (∀ n, n ≠ tile.toNat → (u.core k).tile n = (s.core k).tile n) ∧
      Counts s u k y (qs.length * ((t.cols * fmtBits t.fmt + 7) / 8)) ∧
      let v := (u.core k).tile tile.toNat
      let fits (q : PutRow) (j : Nat) : Nat × Status := match q.puts[j]? with
        | some e => converted y.efmt t.fmt (loaded s k y e)
        | none => (0, {})
      (∀ i, i < t.rows → (∀ q ∈ qs, q.row ≠ i) → (∀ j, j < t.cols → v.code i j = t.code i j) ∧
        (t.fmt = 2 ∨ t.fmt = 3 → ∀ b, b < 4 → v.blockScale i b = t.blockScale i b)) ∧
      (∀ q ∈ qs, (∀ j, j < t.cols → v.code q.row j = (fits q j).1 % 2 ^ fmtBits t.fmt) ∧
        (t.fmt = 2 ∨ t.fmt = 3 → ∀ b, b < 4 → v.blockScale q.row b = match q.trl with
          | some (_, ls) => ((ls.map (s.coreGet k)).getD (4 + b) 0).toNat
          | none => 127)) ∧
      Gathers t v fun x => ∃ q ∈ qs, ∃ j, j < t.cols ∧ x = (fits q j).2) ∧
    ∀ q more, qs = q :: more →
      (∀ e ∈ q.puts, (∃ x ∈ e.locs, s.readBad k x = true) → (∀ z ∈ q.puts, (∃ x ∈ z.locs, s.readBad k x = true) → e.spot.j ≤ z.spot.j) →
        ends s1 5 0x13 (word (e.spot.addr.getD 0 % 2 ^ 57))) ∧
      ∀ a ls, q.trl = some (a, ls) → (∀ e ∈ q.puts, ∀ x ∈ e.locs, s.readBad k x = false) →
        ((∃ x ∈ ls, s.readBad k x = true) → ends s1 5 0x13 (word (a % 2 ^ 57))) ∧
        ((∀ x ∈ ls, s.readBad k x = false) → ¬ passes q →
          ends (s1.afterRead k false (rowPlaces q)) 4 0x14 (word (a % 2 ^ 57 + 2 ^ 57 * q.row)))

/-- R73, R279 to R282, R285, R288, R289: a chunk of HST to memory whose rows have places of their own writes every in-bounds element,
converted, and each row's trailer; it drops and counts the others. (That the conversion of a dropped element raises its status too is
the model's choice, log 91.) -/
def Sys2Proof.Claims.HoistStores : Prop :=
  ∀ (s s1 : State) (k : Nat) (p : Copy) (rest : List Copy) (tile : BitVec 5) (v : BitVec 2) (l : BitVec 8) (c r : Reg) (qs : List PutRow)
      (pt : Point),
    AtChunk s k p rest → p.instr = .hst tile v l c r → (s.core k).point = some pt →
    let y := s.rawLayout k l.toNat
    let t := (s.core k).tile tile.toNat
    let data (e : Put) : Nat × Status := converted t.fmt y.efmt (t.code e.spot.i e.spot.j)
    LegalTile t → y.space ≠ 3 → s.placeRows k p y (writeNeed p) (p.chunkRows y t) = (s1, .ok qs) →
    Distinct y.efmt (held qs) (qs.flatMap fun q => (q.trl.map Prod.snd).getD []) →
    ∃ u, exec (.hoistChunk k) s = .next u ∧ NextChunk u k p rest ∧ (∀ n, (u.core k).tile n = (s.core k).tile n) ∧
      Written s u k y.efmt ((held qs).map fun e => (e, (data e).1)) (qs.flatMap fun q =>
        ((q.trl.map Prod.snd).getD []).zip (trailerBytes y q.row (q.puts.map fun e => (data e).1)
          ((List.range 4).map fun b => tget 0 t.data (32256 + 4 * q.row + b)))) ∧
      StatsTake s u pt y (Status.all ((qs.flatMap fun q => q.puts).map fun e => (data e).2)) (lost (qs.flatMap fun q => q.puts)) ∧
      Counts s u k y (qs.map fun q => ((q.puts.filter fun e => e.spot.addr.isSome).length * fmtBits y.efmt + 7) / 8 +
        if q.trl.isSome then 16 else 0).sum

/-- R49, R288, R290, R291: a chunk of HSTA or HSCT into this device's memory adds the tile to every in-bounds element at its home, the sum
exact and rounded once, and counts the others. -/
def Sys2Proof.Claims.HoistAdds : Prop :=
  ∀ (s s1 : State) (k : Nat) (p : Copy) (rest : List Copy) (tile : BitVec 5) (l : BitVec 8) (c r : Reg) (qs : List PutRow) (pt : Point),
    AtChunk s k p rest → (∃ v, p.instr = .hsta tile v l c r) ∨ (∃ v, p.instr = .hsct tile v l c r) → (s.core k).point = some pt →
    let y := s.rawLayout k l.toNat
    let t := (s.core k).tile tile.toNat
    y.space ≠ 5 → y.trl = false → y.efmt < 2 → s.placeRows k p y (writeNeed p) (p.chunkRows y t) = (s1, .ok qs) → Apart ((held qs).flatMap fun e => e.locs) →
    let s0 := s.syncSectors k ((held qs).flatMap fun e => e.locs)
    let key := s.keyOf k
    let add (e : Put) : Val × Status := t.value 0 e.spot.i e.spot.j
    let sum (e : Put) : Val × Status := valSum [codeVal y.efmt (leNat (e.locs.map (s0.homeGet key))), (add e).1]
    (∀ e ∈ held qs, ∀ x ∈ e.locs, s0.locBad x = false) →
    ∃ u, exec (.hoistChunk k) s = .next u ∧ NextChunk u k p rest ∧ (∀ n, (u.core k).tile n = (s.core k).tile n) ∧
      (∀ e ∈ held qs, e.locs.map (u.homeGet key) = leBytes e.locs.length (roundTo y.efmt 0 true (sum e).1).1) ∧
      SameOutside key ((held qs).flatMap fun e => e.locs) s0 u ∧
      (let x := Status.all ((held qs).flatMap fun e => [(add e).2, (sum e).2, (roundTo y.efmt 0 true (sum e).1).2])
      StatsTake s u pt y { x with sat := false } (lost (qs.flatMap fun q => q.puts))) ∧
      Counts s u k y (qs.map fun q => ((q.puts.filter fun e => e.spot.addr.isSome).length * fmtBits y.efmt + 7) / 8).sum

/-- R279, R285, R288, R293: a chunk of HCPY between memories, and one of HFILL: every in-bounds element of the destination takes the
source element of its indices, or its fill value, converted; or the pattern. Those out of bounds are dropped and counted. -/
def Sys2Proof.Claims.HoistCopiesMemory : Prop :=
  ∀ (s s1 s2 : State) (k : Nat) (p : Copy) (rest : List Copy) (pt : Point) (ld : List Put), AtChunk s k p rest → (s.core k).point = some pt →
    (∀ d c, p.instr = .hfill d c →
      let y := s.rawLayout k d.toNat
      y.space ≠ 3 → s.placeRun k y (writeNeed p) (p.extRun y y p.coords) = (s1, .ok ld) →
      let into := ld.filter fun e => e.spot.addr.isSome
      Distinct y.efmt into [] → ∃ u, exec (.hoistChunk k) s = .next u ∧ NextChunk u k p rest ∧
        Written s u k y.efmt (into.map fun e => (e, p.second.toNat % 2 ^ fmtBits y.efmt)) [] ∧ StatsTake s u pt y {} (lost ld) ∧
        Counts s u k y ((into.length * fmtBits y.efmt + 7) / 8)) ∧
    ∀ d o c, p.instr = .hcpy d o c →
      let y := s.rawLayout k d.toNat
      let z := s.rawLayout k o.toNat
      ∀ ls, y.space ≠ 3 → y.space ≠ 5 → z.space ≠ 3 → s.placeRun k z (readNeed p) (p.extRun y z p.second) = (s1, .ok ls) →
        (∀ e ∈ ls, ∀ x ∈ e.locs, s.readBad k x = false) →
        (s1.afterRead k false (ls.flatMap fun e => e.locs)).placeRun k y (writeNeed p) (p.extRun y y p.coords) = (s2, .ok ld) →
        Unmixed ((ls ++ ld).flatMap fun e => e.locs) →
        let pairs := (ld.zip ls).map fun x => (x.1, converted z.efmt y.efmt (loaded s k z x.2))
        let into := pairs.filter fun x => x.1.spot.addr.isSome
        Distinct y.efmt (into.map Prod.fst) [] → ∃ u, exec (.hoistChunk k) s = .next u ∧ NextChunk u k p rest ∧
          Written s u k y.efmt (into.map fun x => (x.1, x.2.1)) [] ∧
          StatsTake s u pt y (Status.all (pairs.map fun x => x.2.2)) (lost ld) ∧ Counts s u k y ((into.length * fmtBits y.efmt + 7) / 8)

/-- R142, R288, R289: a chunk of HLD takes its in-bounds elements, in order, from the head of a FIFO bank that serves it, and one of HST
appends them at its tail. (That 4-bit elements stand in a bank packed low nibble first is the model's choice, log 44: R142 does not
say it.) -/
def Sys2Proof.Claims.HoistBanks : Prop :=
  ∀ (s : State) (k : Nat) (p : Copy) (rest : List Copy) (tile : BitVec 5) (v : BitVec 2) (l : BitVec 8) (c r : Reg) (pt : Point),
    AtChunk s k p rest → (s.core k).point = some pt →
    let y := s.rawLayout k l.toNat
    let t := (s.core k).tile tile.toNat
    let rows := p.chunkRows y t
    let flat := rows.flatMap Prod.snd
    let ins := flat.filter fun e => e.addr.isSome
    let bytes := (ins.length * fmtBits y.efmt + 7) / 8
    let cl := clusterOf k
    let bs := s.fifoBytes cl y.base
    y.space = 3 → y.base < 64 → LegalTile t →
    (p.instr = .hld tile l c r → s.askBank k y.base bytes p.since true = .serves → s.fifoError cl y.base bytes = false →
      ∃ u, exec (.hoistChunk k) s = .next u ∧ NextChunk u k p rest ∧ u.fifoBytes cl y.base = bs.drop bytes ∧ SameMemory s u ∧
        (∀ (n i : Nat) (es : List Spot) (j : Nat), rows[n]? = some (i, es) → j < t.cols → ((u.core k).tile tile.toNat).code i j =
          (converted y.efmt t.fmt (match es[j]? with
            | some ⟨_, _, some _, _⟩ => bankCode y.efmt bs ((flat.take (n * t.cols + j)).filter fun e => e.addr.isSome).length
            | _ => fillOf y)).1 % 2 ^ fmtBits t.fmt) ∧
        Counts s u k y (rows.length * ((t.cols * fmtBits t.fmt + 7) / 8))) ∧
    (p.instr = .hst tile v l c r → s.askBank k y.base bytes p.since false = .serves →
      ∃ u, exec (.hoistChunk k) s = .next u ∧ NextChunk u k p rest ∧ SameMemory s u ∧
        u.fifoBytes cl y.base = bs ++ packCodes y.efmt (ins.map fun e => (converted t.fmt y.efmt (t.code e.i e.j)).1) ∧
        StatsTake s u pt y (Status.all (flat.map fun e => (converted t.fmt y.efmt (t.code e.i e.j)).2)) (flat.length - ins.length))

namespace Sys2Proof.Claims

/-- Bytes that the in-bounds elements of a run fill (R142, R288). -/
def runBytes (f : Nat) (es : List Spot) : Nat := ((es.filter fun e => e.addr.isSome).length * fmtBits f + 7) / 8

/-- R73, R142: element n of a run taken from a bank that holds some bytes: the in-bounds elements take the codes in order, the others
the fill value. -/
def bankElem (z : Layout) (bs : List Byte) (es : List Spot) (n : Nat) : Nat :=
  match es[n]? with
  | some ⟨_, _, some _, _⟩ => bankCode z.efmt bs ((es.take n).filter fun e => e.addr.isSome).length
  | _ => fillOf z

/-- The codes of the in-bounds elements of a run, in order. -/
def insideCodes (es : List Spot) (codes : List Nat) : List Nat :=
  ((es.zip codes).filter fun x => x.1.addr.isSome).map Prod.snd

end Sys2Proof.Claims

/-- R142, R279, R285, R288, R293: a chunk of HFILL or HCPY at FIFO banks. HFILL appends its pattern once for each in-bounds element. HCPY
takes its in-bounds source elements from the head of a bank that serves it, or appends what it copies at the tail of one, or both; one
bank may be both. Elements out of bounds are dropped and counted. -/
def Sys2Proof.Claims.CopyBanks : Prop :=
  ∀ (s s1 : State) (k : Nat) (p : Copy) (rest : List Copy) (pt : Point), AtChunk s k p rest → (s.core k).point = some pt →
    let cl := clusterOf k
    (∀ d c, p.instr = .hfill d c →
      let y := s.rawLayout k d.toNat
      let ds := p.extRun y y p.coords
      y.space = 3 → y.base < 64 → s.askBank k y.base (runBytes y.efmt ds) p.since false = .serves →
      ∃ u, exec (.hoistChunk k) s = .next u ∧ NextChunk u k p rest ∧ SameMemory s u ∧
        u.fifoBytes cl y.base = s.fifoBytes cl y.base ++
          packCodes y.efmt (insideCodes ds (ds.map fun _ => p.second.toNat % 2 ^ fmtBits y.efmt)) ∧
        StatsTake s u pt y {} (ds.filter fun e => e.addr.isNone).length ∧ Counts s u k y (runBytes y.efmt ds)) ∧
    ∀ d o c, p.instr = .hcpy d o c →
      let y := s.rawLayout k d.toNat
      let z := s.rawLayout k o.toNat
      let ds := p.extRun y y p.coords
      let ss := p.extRun y z p.second
      let out := (ds.filter fun e => e.addr.isNone).length
      let taken := runBytes z.efmt ss
      let bs := s.fifoBytes cl z.base
      let got (n : Nat) : Nat × Status := converted z.efmt y.efmt (bankElem z bs ss n)
      let serves : Prop := z.base < 64 ∧ s.askBank k z.base taken p.since true = .serves ∧ s.fifoError cl z.base taken = false
      (z.space = 3 → serves → y.space ≠ 3 → y.space ≠ 5 → ∀ ld, s.placeRun k y (writeNeed p) ds = (s1, .ok ld) →
        let into := (ld.mapIdx fun n e => (e, (got n).1)).filter fun x => x.1.spot.addr.isSome
        Distinct y.efmt (into.map Prod.fst) [] → ∃ u, exec (.hoistChunk k) s = .next u ∧ NextChunk u k p rest ∧
          u.fifoBytes cl z.base = bs.drop taken ∧ Written s u k y.efmt into [] ∧
          StatsTake s u pt y (Status.all ((List.range ds.length).map fun n => (got n).2)) out ∧ Counts s u k y (runBytes y.efmt ds)) ∧
      (z.space = 3 → serves → y.space = 3 → y.base < 64 → s.askBank k y.base (runBytes y.efmt ds) p.since false = .serves →
        let new := packCodes y.efmt (insideCodes ds ((List.range ds.length).map fun n => (got n).1))
        ∃ u, exec (.hoistChunk k) s = .next u ∧ NextChunk u k p rest ∧ SameMemory s u ∧
          (y.base ≠ z.base → u.fifoBytes cl z.base = bs.drop taken ∧ u.fifoBytes cl y.base = s.fifoBytes cl y.base ++ new) ∧
          (y.base = z.base → u.fifoBytes cl y.base = (bs ++ new).drop taken) ∧
          StatsTake s u pt y (Status.all ((List.range ds.length).map fun n => (got n).2)) out ∧ Counts s u k y (runBytes y.efmt ds)) ∧
      ∀ ls, z.space ≠ 3 → s.placeRun k z (readNeed p) ss = (s1, .ok ls) → (∀ e ∈ ls, ∀ x ∈ e.locs, s.readBad k x = false) →
        y.space = 3 → y.base < 64 →
        (s1.afterRead k false (ls.flatMap fun e => e.locs)).askBank k y.base (runBytes y.efmt ds) p.since false = .serves →
        let cs := ls.map fun e => converted z.efmt y.efmt (loaded s k z e)
        ∃ u, exec (.hoistChunk k) s = .next u ∧ NextChunk u k p rest ∧ SameMemory s u ∧
          u.fifoBytes cl y.base = s.fifoBytes cl y.base ++ packCodes y.efmt (insideCodes ds (cs.map Prod.fst)) ∧
          StatsTake s u pt y (Status.all (cs.map Prod.snd)) out ∧ Counts s u k y (runBytes y.efmt ds)

namespace Sys2Proof.Claims

/-- R413: the number is another device's, and a port of its route is up. -/
def Routed (s : State) (dev : Nat) : Prop := ¬ (s.devnumSet = true ∧ dev = s.devnum) ∧ (s.route dev).isSome = true

/-- R294, R413, R416: what becomes of a chunk by the other device's answer, a free value (log 21): taken, it has left and the copy goes on;
unreachable or refused, the copy ends with status 1 or 2; out of turn, it waits. -/
def Answered (s u : State) (k : Nat) (p : Copy) (rest : List Copy) (dev : Nat) (c : RemoteChunk) : Prop :=
  match Config.remoteAnswer s.draws with
  | 0 => NextChunk u k p rest ∧ u.sent = (dev, c) :: s.sent
  | 1 => (u.core k).copies = { p with status := some 1 } :: rest ∧ u.sent = s.sent
  | 2 => (u.core k).copies = { p with status := some 2 } :: rest ∧ u.sent = s.sent
  | 3 => (u.core k).copies = p :: rest ∧ u.sent = s.sent

end Sys2Proof.Claims

/-- R140, R290, R294: a chunk of HSEND or of HSTA for another device leaves for it as that device answers: the addresses of its in-bounds
elements there, with the codes, or the FP32 values to add; no memory of this device changes. A device without a route ends the
copy with status 1. -/
def Sys2Proof.Claims.HoistSends : Prop :=
  ∀ (s s1 : State) (k : Nat) (p : Copy) (rest : List Copy) (pt : Point), AtChunk s k p rest → (s.core k).point = some pt →
    (∀ d o c ls, p.instr = .hsend d o c →
      let y := s.rawLayout k d.toNat
      let z := s.rawLayout k o.toNat
      let dev := y.base / 2 ^ 38 % 2 ^ 19
      y.space = 5 → z.space ≠ 3 → Routed s dev →
      s.draw.placeRun k z (readNeed p) (p.extRun y z p.second) = (s1, .ok ls) → (∀ e ∈ ls, ∀ x ∈ e.locs, s.readBad k x = false) →
      let pairs := ((p.extRun y y p.coords).zip ls).map fun x => (x.1, converted z.efmt y.efmt (loaded s k z x.2))
      ∃ u, exec (.hoistChunk k) s = .next u ∧ SameMemory s u ∧
        Answered s u k p rest dev ⟨y.bind, pairs.filterMap fun x => x.1.addr.map fun a =>
          ⟨a, leBytes ([4, 2, 1, 1, 1, 4, 2, 4].getD y.efmt 4) x.2.1, if y.efmt = 3 then some x.1.hi else none⟩, false, false⟩ ∧
        (Config.remoteAnswer s.draws = 0 →
          StatsTake s u pt y (Status.all (pairs.map fun x => x.2.2)) ((pairs.filter fun x => x.1.addr.isNone).length))) ∧
    (∀ d o c, p.instr = .hsend d o c →
      let y := s.rawLayout k d.toNat
      let z := s.rawLayout k o.toNat
      let dev := y.base / 2 ^ 38 % 2 ^ 19
      let cl := clusterOf k
      let ss := p.extRun y z p.second
      let taken := runBytes z.efmt ss
      let bs := s.fifoBytes cl z.base
      y.space = 5 → z.space = 3 → z.base < 64 → Routed s dev →
      s.askBank k z.base taken p.since true = .serves → s.fifoError cl z.base taken = false →
      let pairs := (p.extRun y y p.coords).mapIdx fun n e => (e, converted z.efmt y.efmt (bankElem z bs ss n))
      ∃ u, exec (.hoistChunk k) s = .next u ∧ SameMemory s u ∧
        Answered s u k p rest dev ⟨y.bind, pairs.filterMap fun x => x.1.addr.map fun a =>
          ⟨a, leBytes ([4, 2, 1, 1, 1, 4, 2, 4].getD y.efmt 4) x.2.1, if y.efmt = 3 then some x.1.hi else none⟩, false, false⟩ ∧
        u.fifoBytes cl z.base = (if Config.remoteAnswer s.draws = 0 then bs.drop taken else bs)) ∧
    (∀ tile v l c r, p.instr = .hsta tile v l c r →
      let y := s.rawLayout k l.toNat
      let t := (s.core k).tile tile.toNat
      let dev := y.base / 2 ^ 38 % 2 ^ 19
      let flat := (p.chunkRows y t).flatMap Prod.snd
      y.space = 5 → Routed s dev →
      ∃ u, exec (.hoistChunk k) s = .next u ∧ SameMemory s u ∧
        Answered s u k p rest dev (⟨y.bind, flat.filterMap fun e => e.addr.map fun a =>
          (⟨a, leBytes 4 (roundTo 0 0 true (t.value 0 e.i e.j).1).1, none⟩ : RemoteElem), true, y.efmt == 1⟩ : RemoteChunk)) ∧
    ∀ i, p.instr = i → (∃ a b c, i = .hsend a b c) ∨ (∃ a v b c d, i = .hsta a v b c d) →
      let y := s.rawLayout k (match i with | .hsend d _ _ => d.toNat | .hsta _ _ l _ _ => l.toNat | _ => 0)
      let dev := y.base / 2 ^ 38 % 2 ^ 19
      y.space = 5 → ¬ (s.devnumSet = true ∧ dev = s.devnum) → s.route dev = none →
      ∃ u, exec (.hoistChunk k) s = .next u ∧ (u.core k).copies = { p with status := some 1 } :: rest ∧ SameMemory s u

/-- R73, R278 to R282, R285, R287 to R291: the elements of a chunk with their places, and the data that loads move. In a FIFO bank 4-bit
elements are packed low nibble first by the model's choice (log 44). -/
def Obligations.HoistLoads : Prop :=
  Claims.ChunkElements ∧ Claims.ScratchPlaces ∧ Claims.HoistLoads ∧ Claims.HoistBanks

/-- R142, R279 to R282, R285, R288 to R291, R293 and R294: the data that stores, additions, copies between layouts, FIFO banks among them,
and sends move. (That the conversion of a dropped element raises its status too is log 91; that 4-bit elements are packed low nibble
first in a bank log 44: the model's choices.) -/
def Obligations.HoistStores : Prop :=
  Claims.HoistStores ∧ Claims.HoistAdds ∧ Claims.HoistCopiesMemory ∧ Claims.CopyBanks ∧ Claims.HoistSends

/-! ### Task queues -/

namespace Sys2Proof.Claims

/-- The register names a queue that the core may use: of a member cluster of its formed partition, enabled and owned by it; a consumer's
own cluster (R200, R204). -/
def NamesQueue (s : State) (k : Nat) (v : Word) (id : Nat) (own : Bool) : Prop :=
  v.toNat = id ∧ id < 512 ∧ (s.pcb (s.core k).part).formed = true ∧ (s.pcb (s.core k).part).clusters.getLsbD (id / 4) = true ∧
    (s.queue id).en = true ∧ (s.queue id).owner = (s.core k).part ∧ (own = true → id / 4 = clusterOf k)

/-- Everything the queue holds is in its hardware entries, and no put of it has faulted. -/
def OnChip (q : TaskQueue) : Prop := (∀ x ∈ q.slots, x.ring = none ∧ x.waits = false) ∧ q.scount = 0 ∧ q.faulted = none

/-- The eight registers from d on, and one more. -/
def eightRegs (a d : Reg) : List Reg := a :: (List.range 8).map fun i => BitVec.ofNat 5 (d.toNat + i)

end Sys2Proof.Claims

/-- The 64 bytes of a record stand in the cluster's scratch from an address on. -/
def Sys2Proof.Claims.StandsAt (u : State) (cl addr : Nat) (ws : List Word) : Prop :=
  ∀ i, i < 64 → tget 0 (u.cluster cl).scratch (addr + i) = (ws.flatMap fun w => leBytes 8 w.toNat).getD i 0

/-- R203: in a queue whose hardware entries are taken and whose sump is full, QRES and QPUT wait under block and raise cause 0x11 under
trap. -/
def Sys2Proof.Claims.FullQueue : Prop :=
  ∀ (s : State) (k : Nat) (st : StreamId) (d a : Reg) (id : Nat), s.turn = some (k, st) → s.waiters = [] →
    let q := s.queue id
    NamesQueue s k (s.reg k st a) id false → q.faulted = none → 2 ^ q.slog ≤ q.scount →
      (s.anyPending k st [a, d] = false → (s.stream k st).tickets.length < 4 →
        (q.ftrap = false → exec (.qres d a) s = .next (s.waitOn k st (.queueRoom id false))) ∧
        (q.ftrap = true → exec (.qres d a) s = .next (s.raise k st 0x11 (word (id + 2 ^ 32 * 5))))) ∧
      (s.anyPending k st (eightRegs a d) = false → (s.reg k st d).toNat / 2 ^ 56 ≠ 0 →
        (q.ftrap = false → exec (.qput d a) s = .next (s.waitOn k st (.queueRoom id false))) ∧
        (q.ftrap = true → exec (.qput d a) s = .next (s.raise k st 0x11 (word (id + 2 ^ 32 * 5)))))

/-- Publishing a ticket refills nothing: the queue is refill-blocked, or no freed entry waits, or the one at the sump head waits for
another ticket, which is only reserved (R359). -/
def Sys2Proof.Claims.RefillsNothing (q : TaskQueue) (t : Nat) : Prop :=
  q.rblk = true ∨ ((∀ x ∈ q.slots, x.waits = false) ∧ q.freed = []) ∨
    ∃ x, q.slots.find? (fun y => y.ring.isSome) = some x ∧ x.ticket ≠ t ∧ x.state = .reserved

/-- R358: once the sump is in use, or 32 hardware entries are occupied, a reservation takes the sump slot at SHEAD + SCOUNT, and SCOUNT
rises; an entry that was freed before and has no slot to wait for waits for this one (R359); the record of a put is written to its slot,
in the cluster's scratch where the sump lies there. A QPUB to a sump slot waits while the queue is spill-blocked. -/
def Sys2Proof.Claims.SumpSlots : Prop :=
  ∀ (s : State) (k : Nat) (st : StreamId) (d a : Reg) (id : Nat), s.turn = some (k, st) → s.waiters = [] →
    let q := s.queue id
    let tail := q.tail
    let record := s.regRun k st d.toNat 8
    let nonVoid := (s.reg k st d).toNat / 2 ^ 56 ≠ 0
    let ring := (q.shead + q.scount) % 2 ^ 21
    let at' (r : Nat) : Nat := q.sbase + 64 * (r % 2 ^ q.slog)
    let grows (u : State) (x : SlotState) : Prop :=
      (u.queue id).slots = q.slots ++ [⟨tail, some ring, x, !q.freed.isEmpty, q.freed.headD 0⟩] ∧ (u.queue id).scount = q.scount + 1 ∧
        (u.queue id).freed = q.freed.drop 1 ∧ (u.queue id).tail = (tail + 1) % 2 ^ 32 ∧ u.pos k st = (s.pos k st).after 2
    (NamesQueue s k (s.reg k st a) id false → q.faulted = none → q.scount < 2 ^ q.slog →
        q.scount ≠ 0 ∨ 32 ≤ (q.slots.filter fun x => x.ring.isNone).length →
        (s.anyPending k st [a, d] = false → (s.stream k st).tickets.length < 4 → ∃ u, exec (.qres d a) s = .next u ∧ grows u .reserved ∧
          (u.stream k st).tickets.contains (id, tail) = true ∧ (d ≠ 0 → u.reg k st d = word (tail + 2 ^ 32 * id))) ∧
        (s.anyPending k st (eightRegs a d) = false → nonVoid → (∀ x ∈ q.slots, x.ticket ≠ tail) → q.sspace = true → RefillsNothing q tail →
          (s.cluster (id / 4)).scratchBanks (at' ring) 64 = true →
          ∃ u, exec (.qput d a) s = .next u ∧ grows u .sump ∧ StandsAt u (id / 4) (at' ring) record)) ∧
      ∀ t x r, t < 2 ^ 32 → (s.reg k st a).toNat = t + 2 ^ 32 * id → NamesQueue s k (word id) id false →
        s.anyPending k st (eightRegs a d) = false → nonVoid → (s.stream k st).tickets.contains (id, t) = true →
        q.slotOf t = some x → x.ring = some r →
        (q.faulted ≠ none → exec (.qpub d a) s = .next (s.waitOn k st (.queueRoom id true))) ∧
        (q.faulted = none → q.sspace = true → RefillsNothing q t → (s.cluster (id / 4)).scratchBanks (at' r) 64 = true →
          ∃ u, exec (.qpub d a) s = .next u ∧ StandsAt u (id / 4) (at' r) record ∧ u.pos k st = (s.pos k st).after 2 ∧
            (u.queue id).slots = q.slots.map (fun y => if y.ticket = t then { y with state := .sump } else y) ∧
            (u.stream k st).tickets = (s.stream k st).tickets.filter (fun p => p != (id, t)))

/-- R201, R203 and R204: QRES takes the next ticket, QPUB publishes the eight registers at a ticket it holds, QPUT does both in one step;
each raises cause 0x11 with its reason where it may not. -/
def Sys2Proof.Claims.QueueProducers : Prop :=
  ∀ (s : State) (k : Nat) (st : StreamId) (d a : Reg) (id : Nat), s.turn = some (k, st) → s.waiters = [] →
    let q := s.queue id
    let tail := q.tail
    let record := s.regRun k st d.toNat 8
    let nonVoid := (s.reg k st d).toNat / 2 ^ 56 ≠ 0
    let grows (u : State) (x : SlotState) : Prop :=
      (u.queue id).slots = q.slots ++ [⟨tail, none, x, false, 0⟩] ∧ (u.queue id).tail = (tail + 1) % 2 ^ 32 ∧
        u.pos k st = (s.pos k st).after 2
    (NamesQueue s k (s.reg k st a) id false → OnChip q → q.slots.length < 32 →
      (s.anyPending k st [a, d] = false → (s.stream k st).tickets.length < 4 → ∃ u, exec (.qres d a) s = .next u ∧ grows u .reserved ∧
        (u.stream k st).tickets.contains (id, tail) = true ∧ (d ≠ 0 → u.reg k st d = word (tail + 2 ^ 32 * id)) ∧
        ∀ r, r ≠ d → u.reg k st r = s.reg k st r) ∧
      (s.anyPending k st (eightRegs a d) = false → nonVoid → (∀ x ∈ q.slots, x.ticket ≠ tail) → ∃ u, exec (.qput d a) s = .next u ∧
        grows u (.entry record) ∧ ∀ r, u.reg k st r = s.reg k st r)) ∧
    (∀ t, t < 2 ^ 32 → (s.reg k st a).toNat = t + 2 ^ 32 * id → NamesQueue s k (word id) id false → OnChip q →
      s.anyPending k st (eightRegs a d) = false → nonVoid →
      ((s.stream k st).tickets.contains (id, t) = true → ∃ u, exec (.qpub d a) s = .next u ∧
        (u.queue id).slots = q.slots.map (fun x => if x.ticket = t then { x with state := .entry record } else x) ∧
        (u.stream k st).tickets = (s.stream k st).tickets.filter (fun p => p != (id, t)) ∧ u.pos k st = (s.pos k st).after 2) ∧
      ((s.stream k st).tickets.contains (id, t) = false → exec (.qpub d a) s = .next (s.raise k st 0x11 (word (t + 2 ^ 32 * 3))))) ∧
    (s.anyPending k st [a, d] = false → 512 ≤ (s.reg k st a).toNat →
      exec (.qres d a) s = .next (s.raise k st 0x11 (word ((s.reg k st a).toNat % 2 ^ 32 + 2 ^ 32 * 1)))) ∧
    (s.anyPending k st [a, d] = false → NamesQueue s k (s.reg k st a) id false → 4 ≤ (s.stream k st).tickets.length →
      exec (.qres d a) s = .next (s.raise k st 0x11 (word (id + 2 ^ 32 * 4)))) ∧
    (s.anyPending k st (eightRegs a d) = false → NamesQueue s k (s.reg k st a) id false → ¬ nonVoid →
      exec (.qput d a) s = .next (s.raise k st 0x11 (word (id + 2 ^ 32 * 2))))

/-- R129 and R361: the slot holds a VOID record: one that the headframe put there, or one whose word 0 has [63:56] zero. -/
def Sys2Proof.Claims.HoldsVoid (x : Slot) : Prop :=
  x.state = .void ∨ ∃ ws, x.state = .entry ws ∧ (ws.headD 0).toNat / 2 ^ 56 = 0

/-- R202 and R361: QTAKE and QTRY take the first record at the head that is not VOID into eight registers and pass the VOID ones over; at
an empty queue, or at a gap, QTAKE waits and QTRY reads zeros. -/
def Sys2Proof.Claims.QueueConsumers : Prop :=
  ∀ (s : State) (k : Nat) (st : StreamId) (d a : Reg) (id : Nat), s.turn = some (k, st) → s.waiters = [] →
    NamesQueue s k (s.reg k st a) id true → OnChip (s.queue id) → s.anyPending k st (eightRegs a d) = false → d.toNat ≤ 24 →
    (∀ t n ws vs rest, (s.queue id).slots = vs ++ ⟨t, none, .entry ws, false, n⟩ :: rest → (∀ x ∈ vs, HoldsVoid x) → ws.length = 8 →
      (ws.headD 0).toNat / 2 ^ 56 ≠ 0 →
      ∃ u, exec (.qtake d a) s = .next u ∧ exec (.qtry d a) s = .next u ∧ (u.queue id).slots = rest ∧
        (u.queue id).head = ((s.queue id).head + vs.length + 1) % 2 ^ 32 ∧ u.pos k st = (s.pos k st).after 2 ∧
        ∀ r, u.reg k st r = if r ≠ 0 ∧ d.toNat ≤ r.toNat ∧ r.toNat < d.toNat + 8 then ws.getD (r.toNat - d.toNat) 0 else s.reg k st r) ∧
    ((s.queue id).slots = [] → exec (.qtake d a) s = .next (s.waitOn k st (.queueHead id)) ∧
      ∃ u, exec (.qtry d a) s = .next u ∧ u.pos k st = (s.pos k st).after 2 ∧
        ∀ r, u.reg k st r = if d.toNat ≤ r.toNat ∧ r.toNat < d.toNat + 8 then 0 else s.reg k st r) ∧
    ∀ vs rest, (s.queue id).slots = vs ++ rest → (∀ x ∈ vs, HoldsVoid x) →
      (rest = [] ∨ ∃ t n r, rest = ⟨t, none, .reserved, false, n⟩ :: r) →
      (∃ u, exec (.qtake d a) s = .next u ∧ (u.queue id).slots = rest ∧ u.pos k st = s.pos k st ∧ ∀ r, u.reg k st r = s.reg k st r) ∧
      ∃ u, exec (.qtry d a) s = .next u ∧ (u.queue id).slots = rest ∧ u.pos k st = (s.pos k st).after 2 ∧
        ∀ r, u.reg k st r = if d.toNat ≤ r.toNat ∧ r.toNat < d.toNat + 8 then 0 else s.reg k st r

/-- R357, R360: a disabled queue takes its configuration and its sump, and leaves ERR as it was; one that holds entries refuses both with
error 5; QRESUME without a fault is refused with error 2; with one it writes the record of the put that faulted into its sump slot,
takes the ticket off its stream and lets every core of the crew go on. -/
def Sys2Proof.Claims.QueueConfiguration : Prop :=
  ∀ (s : State) (cl n p : Nat) (v : Word), cl < 128 → n < 4 → s.fwstat = 0 → s.partitionOf cl = some p →
    (s.pcb p).isSealed = false →
    let id := 4 * cl + n
    let q := s.queue id
    (q.en = false → 6 ≤ field v 3 5 → field v 3 5 ≤ 20 → field v 8 7 = p →
      ∃ u, exec (.qcfgWrite cl n v) s = .next u ∧ (u.queue id).en = v.getLsbD 0 ∧ (u.queue id).ftrap = v.getLsbD 1 ∧
        (u.queue id).sspace = v.getLsbD 2 ∧ (u.queue id).slog = field v 3 5 ∧ (u.queue id).owner = p ∧ (u.queue id).err = q.err ∧
        (v.getLsbD 0 = true → (u.queue id).slots = [])) ∧
    (q.en = false → v.toNat % 64 = 0 → ∃ u, exec (.qbaseWrite cl n v) s = .next u ∧ (u.queue id).sbase = v.toNat % 2 ^ 57 ∧
      (u.queue id).slots = q.slots ∧ (u.queue id).err = q.err) ∧
    (q.en = true → q.slots ≠ [] → exec (.qcfgWrite cl n v) s = .next (s.setQueue id { q with err := 5 }) ∧
      exec (.qbaseWrite cl n v) s = .next (s.setQueue id { q with err := 5 })) ∧
    (q.faulted = none → q.rblk = false → exec (.qresume cl n) s = .next (s.setQueue id { q with err := 2 })) ∧
    (∀ x y r, q.faulted = some x → q.rblk = false → q.sspace = true → (q.slotOf x.ticket) = some y → y.ring = some r →
      (s.cluster cl).scratchBanks (q.slotAddr r) 64 = true → x.words.length = 8 →
      (∀ v ∈ s.saves, ∀ i ∈ v.2.images, i.holdsPut id x = false) →
      ∃ u, exec (.qresume cl n) s = .next u ∧ (u.queue id).faulted = none ∧ (u.queue id).err = 0 ∧
        (∀ j, (match (s.core x.core).point with
          | some p => j ∈ crewCores p.kind p.base
          | none => j = x.core) → (u.core j).suspended = false) ∧
        (u.stream x.core x.st).tickets = (s.stream x.core x.st).tickets.filter (fun t => t != (id, x.ticket)) ∧
        ∀ i, i < 64 → tget 0 (u.cluster cl).scratch (q.slotAddr r + i) = (x.words.flatMap fun w => leBytes 8 w.toNat).getD i 0)

/-- R361: a killed context is halted with no point, which is the model's choice (log 18), and holds no ticket. Every ticket that it held
names a VOID record: its hardware entry, its sump slot with 64 zero bytes written there, or, where the slot cannot be written, one that
the queue itself keeps. Nothing of another core changes but that a crew of it whose put had faulted is suspended no more. -/
def Sys2Proof.Claims.ContextKilled : Prop :=
  ∀ (s : State) (k : Nat), ∃ u, exec (.contextKill k) s = .next u ∧ (u.core k).halted = true ∧ (u.core k).point = none ∧
    (∀ x, (u.stream k x).tickets = []) ∧
    (∀ x id t y, (id, t) ∈ (s.stream k x).tickets → (s.queue id).slotOf t = some y → ∃ z, (u.queue id).slotOf t = some z ∧
      (y.ring = none → z.state = .void) ∧
      ∀ r, y.ring = some r → (s.queue id).sspace = true →
        HoldsVoid z ∨ z.state = .sump ∧ StandsAt u (id / 4) ((s.queue id).slotAddr r) (List.replicate 8 0)) ∧
    (∀ x id t y r s1, (s.stream k x).tickets = [(id, t)] → (∀ z, z ≠ x → (s.stream k z).tickets = []) → (s.queue id).faulted = none →
      (s.queue id).slotOf t = some y → y.ring = some r →
      (s.sumpWrite id ((s.queue id).slotAddr r) (List.replicate 8 0) = (s1, none) → SameMemory s1 u ∧
        ∃ z, (u.queue id).slotOf t = some z ∧ (z.state = .sump ∨ ∃ ws, z.state = .entry ws)) ∧
      ∀ f, s.sumpWrite id ((s.queue id).slotAddr r) (List.replicate 8 0) = (s1, some f) → SameMemory s1 u ∧
        ∃ z, (u.queue id).slotOf t = some z ∧ z.state = .void) ∧
    ∀ j, j ≠ k → u.core j = { s.core j with suspended := (u.core j).suspended }

/-! ### Launch records -/

/-- R127, R206 and R344: a device request on a record of the core's slice: LPATCH writes a word that the record's mask opens, LARM arms a
record whose checks pass, LQUERY reads its state; a record of another slice, another state, a failing word and a closed word raise cause
0x12 with reasons 2 to 5. -/
def Sys2Proof.Claims.LaunchRequests : Prop :=
  ∀ (s : State) (k : Nat) (st : StreamId) (d a : Reg) (f : BitVec 11) (n : Nat), Acts s k st [a, d] → n = (s.reg k st a).toNat →
    let r := s.record n
    let editable := r.state = .built ∨ r.state = .done
    let open' := f.toNat < 32 ∧ f.toNat ≠ 17 ∧ (r.words.toList.getD 17 0).getLsbD f.toNat = true
    let inSlice := n < 4096 ∧ (s.pcb (s.core k).part).holds n = true
    (inSlice → exec (.lquery d a) s = wrote s k st d 2 (word r.state.code)) ∧
    (inSlice → editable → open' → ∃ u, exec (.lpatch d a f) s = .next u ∧ u.pos k st = (s.pos k st).after 2 ∧
      (u.record n).state = r.state ∧ (∀ m, m ≠ n → u.record m = s.record m) ∧
      ∀ m, m < 32 → (u.record n).words.toList.getD m 0 = if m = f.toNat then s.reg k st d else r.words.toList.getD m 0) ∧
    (inSlice → editable → ¬ open' → exec (.lpatch d a f) s = .next (s.raise k st 0x12 (launchInfo n 5 0))) ∧
    (inSlice → ¬ editable → exec (.lpatch d a f) s = .next (s.raise k st 0x12 (launchInfo n 3 0)) ∧
      exec (.larm a) s = .next (s.raise k st 0x12 (launchInfo n 3 0))) ∧
    (∀ s1 got, inSlice → editable → s.checkArm (s.core k).part n = (s1, .ok got) → ∃ u, exec (.larm a) s = .next u ∧
      (u.record n).state = .armed ∧ (u.record n).words = r.words ∧ (u.record n).nser = 1 ∧ (u.record n).points = [] ∧
      (u.record n).heights = [] ∧ (u.record n).stats = [] ∧ (∀ m, m ≠ n → u.record m = s.record m) ∧ SameMemory s u ∧
      u.pos k st = (s.pos k st).after 2) ∧
    (∀ s1 w, inSlice → editable → s.checkArm (s.core k).part n = (s1, .error w) →
      exec (.larm a) s = .next (s1.raise k st 0x12 (launchInfo n 4 w))) ∧
    (¬ inSlice → ∀ i ∈ [Instr.lquery d a, .lpatch d a f, .larm a], exec i s = .next (s.raise k st 0x12 (launchInfo n 2 0)))

/-- R340 and R349: the host's launch commands of a partition that is not sealed, and what each leaves in LSTAT: BUILD takes a FREE record,
PATCH, ARM and FREE a BUILT or DONE one (FREE a FAULTED one too), QUERY any; elsewhere error 2. PATCH of word 17 and ARM of a record that
fails a check leave error 3. ABORT fails a live record. A pool write reaches a FREE record. Each command is refused with error 1 for a
record outside the slice, and for one of the slice with error 4 by a sealed partition (the order of the two is the model's choice,
log 95). -/
def Sys2Proof.Claims.HostLaunchCommands : Prop :=
  ∀ (s : State) (p n w : Nat), w < 32 →
    let r := s.record n
    let tells (u : State) (err : Nat) : Prop := (u.pcb p).lerr = err ∧ (u.pcb p).lrec = n ∧ (u.pcb p).lstate = (u.record n).state.code
    let refused (e : Nat) : Prop := ∀ i ∈ [Instr.build p n, .patch p n w, .arm p n, .query p n, .free p n],
      ∃ u, exec i s = .next u ∧ tells u e ∧ u.record n = r
    s.fwstat = 0 →
    ((s.pcb p).holds n = true → (s.pcb p).isSealed = false →
      (∃ u, exec (.query p n) s = .next u ∧ tells u 0 ∧ u.record n = r) ∧
      (∃ u, exec (.build p n) s = .next u ∧ (r.state = .free → tells u 0 ∧ (u.record n).state = .built ∧ (u.record n).words = r.words) ∧
        (r.state ≠ .free → tells u 2 ∧ u.record n = r)) ∧
      (∃ u, exec (.patch p n w) s = .next u ∧ (u.pcb p).lword = w ∧
        (r.state = .built ∨ r.state = .done → w ≠ 17 → tells u 0 ∧ (u.record n).state = r.state ∧
          ∀ m, m < 32 → (u.record n).words.toList.getD m 0 = if m = w then (s.pcb p).ldata else r.words.toList.getD m 0) ∧
        (r.state = .built ∨ r.state = .done → w = 17 → tells u 3 ∧ u.record n = r) ∧
        (¬ (r.state = .built ∨ r.state = .done) → tells u 2 ∧ u.record n = r)) ∧
      (∀ s1 got, r.state = .built ∨ r.state = .done → s.checkArm p n = (s1, .ok got) →
        ∃ u, exec (.arm p n) s = .next u ∧ tells u 0 ∧ (u.record n).state = .armed) ∧
      (∀ s1 x, r.state = .built ∨ r.state = .done → s.checkArm p n = (s1, .error x) →
        ∃ u, exec (.arm p n) s = .next u ∧ tells u 3 ∧ u.record n = r) ∧
      (¬ (r.state = .built ∨ r.state = .done) → ∃ u, exec (.arm p n) s = .next u ∧ tells u 2 ∧ u.record n = r) ∧
      (∃ u, exec (.free p n) s = .next u ∧ (r.state = .built ∨ r.state = .done ∨ r.state = .faulted → tells u 0 ∧ (u.record n).state = .free) ∧
        (¬ (r.state = .built ∨ r.state = .done ∨ r.state = .faulted) → tells u 2 ∧ u.record n = r))) ∧
    ((s.pcb p).holds n = false → refused 1) ∧
    ((s.pcb p).holds n = true → (s.pcb p).isSealed = true → refused 4) ∧
    ((∀ o, s.sliceOwner n = some o → (s.pcb o).isSealed = false) →
      (r.state = .armed ∨ r.state = .waiting ∨ r.state = .active → ∃ u, exec (.abort n) s = .next u ∧ (u.record n).state = .faulted ∧
        u.reccmdErr = 0 ∧ u.recsel = n % 4096 ∧ ∀ f ∈ (u.record n).points, f.crew.isSome = true) ∧
      (¬ (r.state = .armed ∨ r.state = .waiting ∨ r.state = .active) →
        exec (.abort n) s = .next { s with recsel := n % 4096, reccmdErr := 2 }) ∧
      ∀ v, n < 4096 → r.state = .free → ∃ u, exec (.poolWrite (256 * n + 8 * w) v) s = .next u ∧
        ∀ m, m < 32 → (u.record n).words.toList.getD m 0 = if m = w then v else r.words.toList.getD m 0)

namespace Sys2Proof.Claims

/-- What a round leaves of a record whose points have pairwise different serials, below the next one, and pairwise different lines: each
completion of its arming takes its point off the record; an ACTIVE FRONT record's line then has the height of that point's sweep
coordinate plus 1, every other line keeps its height and every other point of a record that stays ACTIVE stays; so a completion of an
earlier arming changes nothing (R348, log 82); a FAULTED record keeps all heights; the point of a RANGE record that has work left stays,
ended, with that work. -/
def Completed (s u : State) (n : Nat) : Prop :=
  let r := s.record n
  let w := u.record n
  (∀ serial p, (n, serial, r.arming) ∈ s.completions → r.fired serial = some p →
    (r.isRange = false ∨ p.stop ≤ p.cur → ∀ f ∈ w.points, f.serial ≠ serial) ∧
    (r.isRange = false → r.state = .active → tget 0 w.heights p.line = p.coords.getD r.sweep 0 + 1) ∧
    (r.isRange = true → p.cur < p.stop → p.crew.isSome → ∃ f ∈ w.points, f.serial = serial ∧ f.ended = true ∧
      f.cur = p.cur ∧ f.stop = p.stop ∧ f.crew = p.crew)) ∧
  (r.isRange = false → r.state = .active → ∀ line,
    (∀ serial p, (n, serial, r.arming) ∈ s.completions → r.fired serial = some p → p.line ≠ line) →
      tget 0 w.heights line = tget 0 r.heights line) ∧
  (r.isRange = false → r.state = .active → w.state = .active → ∀ p ∈ r.points, (n, p.serial, r.arming) ∉ s.completions →
    ∃ f ∈ w.points, f.serial = p.serial ∧ f.coords = p.coords ∧ f.line = p.line) ∧
  (r.state = .faulted → w.heights = r.heights)

end Sys2Proof.Claims

/-- R117, R126, R128 and R345: a headframe round records every completion that has arrived, one of an earlier arming of its record
without effect (log 82); no round changes the words of a record or the
state of one that is not ARMED, WAITING or ACTIVE; an ARMED RANGE record that waits for nothing becomes ACTIVE; a live record of
which a predecessor is FAULTED becomes FAULTED. -/
def Obligations.HeadframeRound : Prop :=
  ∀ (s : State), Rising s.records →
    ∃ u, exec .headframeRound s = .next u ∧ u.completions = [] ∧
      (∀ n, (u.record n).words = (s.record n).words ∧
        ((s.record n).state.live = false → (u.record n).state = (s.record n).state) ∧
        (Rising (s.record n).heights → ((s.record n).points.map fun p => p.serial).Nodup → ((s.record n).points.map fun p => p.line).Nodup →
          (∀ p ∈ (s.record n).points, p.serial < (s.record n).nser) → Completed s u n)) ∧
      (∀ n r, (n, r) ∈ s.records → r.state = .armed → r.isRange = true → r.npred = 0 → r.nlink = 0 → (u.record n).state = .active) ∧
      ∀ n r i, (n, r) ∈ s.records → r.state.live = true → i < r.npred → (s.record (r.pred i)).state = .faulted →
        (u.record n).state = .faulted

namespace Sys2Proof.Claims

/-- R117: the number of the line on which a point lies: the dimensions but the sweep dimension, the lowest least significant. -/
def lineNo (r : Record) (x : List Int) : Nat :=
  (((List.range r.dims).filter fun k => k ≠ r.sweep).map fun k =>
    (x.getD k 0).toNat * (((List.range k).filter fun j => j ≠ r.sweep).map r.ext).prod).sum

/-- R117: a point lies behind the face where its sweep coordinate is below the height of its line. -/
def BehindFace (r : Record) (x : List Int) : Prop := x.getD r.sweep 0 < ((tget 0 r.heights (lineNo r x) : Nat) : Int)

/-- The coordinates are those of a point of the record. -/
def InSpace (r : Record) (x : List Int) : Prop := ∀ k, k < r.dims → 0 ≤ x.getD k 0 ∧ x.getD k 0 < (r.ext k : Int)

/-- R116, R118, R119: the test of a point: what it depends on along the sweep and by every declared vector lies behind its record's face
where it is a point at all, and so does the point that each linked vector names in the linked record, which counts as behind
where that record is DONE. R119 has no row for a linked record that is FREE; that it counts as not behind is the model's reading (log 68). -/
def PassesTest (s : State) (r : Record) (x : List Int) : Prop :=
  (∀ y : List Int, y.length = r.dims → InSpace r y →
    (∀ k, k < r.dims → y.getD k 0 = x.getD k 0 - if k = r.sweep then 1 else 0) ∨
      (∃ m, m < r.ndep ∧ ∀ k, k < r.dims → y.getD k 0 = x.getD k 0 - r.dep m k) → BehindFace r y) ∧
  ∀ m, m < r.nlink → ∀ y : List Int, y.length = (s.record (r.linkQ m)).dims → InSpace (s.record (r.linkQ m)) y →
    (∀ k, k < (s.record (r.linkQ m)).dims → y.getD k 0 =
      (if r.linkM m k then ((s.record (r.linkQ m)).ext k : Int) - 1 - x.getD k 0 else x.getD k 0) - r.linkO m k) →
    (s.record (r.linkQ m)).state = .done ∨ (s.record (r.linkQ m)).state = .active ∧ BehindFace (s.record (r.linkQ m)) y

end Sys2Proof.Claims

/-- R117, R118, R350, R351: in a round in which no completion has arrived and no record changes its state, an ACTIVE FRONT record fires, of each line
without a point in flight, the point at the line's height exactly where it passes the test, with the record's
next serials; a line whose height is its extent fires nothing. That a linked record which is FREE counts as not behind is log 68. -/
def Obligations.FireTests : Prop :=
  ∀ (s : State) (n : Nat), Rising s.records → s.completions = [] → (∃ r, (n, r) ∈ s.records) →
    (∀ m, (s.record m).state = .free ∨ (s.record m).state = .built ∨ (s.record m).state = .active ∨ (s.record m).state = .done) →
    let r := s.record n
    r.state = .active → r.isRange = false → r.sweep < r.dims → s.savedRecord n = false → r.points.length + r.lines ≤ 256 →
    (∀ p ∈ r.points, p.serial < r.nser) →
    ∃ u, exec .headframeRound s = .next u ∧ r.nser ≤ (u.record n).nser ∧
      (∀ x : List Int, x.length = r.dims → InSpace r x → x.getD r.sweep 0 = ((tget 0 r.heights (lineNo r x) : Nat) : Int) →
        (∀ p ∈ r.points, p.line ≠ lineNo r x) →
        (PassesTest s r x → ∃ f ∈ (u.record n).points, f.line = lineNo r x ∧ f.coords = x.map Int.toNat ∧ r.nser ≤ f.serial ∧
          f.serial < (u.record n).nser) ∧
        (¬ PassesTest s r x → ∀ f ∈ (u.record n).points, f.line ≠ lineNo r x)) ∧
      (∀ f ∈ (u.record n).points, f.line < r.lines ∨ ∃ p ∈ r.points, f.serial = p.serial) ∧
      (∀ p ∈ r.points, ∃ f ∈ (u.record n).points, f.serial = p.serial ∧ f.coords = p.coords ∧ f.line = p.line) ∧
      ∀ line, r.ext r.sweep ≤ tget 0 r.heights line → (∀ p ∈ r.points, p.line ≠ line) → ∀ f ∈ (u.record n).points, f.line ≠ line

/-- R75, R112, R113 and R56: a dispatched point starts on every core of its crew at once: the point and its rank, the argument registers,
the entry blocks, and the reset values of what belongs to the point; the partition's and the core's own registers stay. -/
def Sys2Proof.Claims.PointStarts : Prop :=
  ∀ (s : State) (n serial first : Nat) (f : Fired), (s.record n).fired serial = some f → f.crew = some first → f.started = false →
    f.serial = serial → s.canStart (s.record n) first = true →
    ∃ u, exec (.pointStart n serial) s = .next u ∧
      (∃ g, (u.record n).fired serial = some g ∧ g.started = true ∧ g.coords = f.coords) ∧
      ∀ k ∈ crewCores (s.record n).crew first,
        (∃ p, (u.core k).point = some p ∧ p.recNo = n ∧ p.serial = serial ∧ p.base = first ∧ p.kind = (s.record n).crew ∧
          p.rank = k - first ∧ p.coords = f.coords ∧ p.lamp = (s.record n).lamp ∧ p.arming = (s.record n).arming) ∧
        (∀ st, (u.stream k st).pos.hdr = (s.record n).entry st ∧ (u.stream k st).ended = ((s.record n).entry st == 0) ∧
          (u.stream k st).seq = 0 ∧ (u.stream k st).stack = [] ∧
          (∀ i, i < 8 → (u.stream k st).regs.toList.getD (i + 1) 0 = (s.record n).arg i) ∧
          ∀ i, 9 ≤ i → i < 32 → (u.stream k st).regs.toList.getD i 0 = 0) ∧
        (u.core k).events = 0 ∧ (u.core k).tiles = [] ∧ (u.core k).priv = false ∧ (u.core k).ntiles = (s.record n).tiles ∧
        (u.core k).trapvec = (s.core k).trapvec ∧ (u.core k).panels = (s.core k).panels ∧ (u.core k).partition = (s.core k).partition

/-- R114, R347: a point whose crew has finished ends: its cores are idle and its completion is on its way, with the arming it was fired in
(log 82); a record of which everything is done is DONE once its statistics are written. -/
def Sys2Proof.Claims.PointsEnd : Prop :=
  ∀ (s : State),
    (∀ n serial p, s.crewRunning n serial = some p →
      (∀ k ∈ crewCores p.kind p.base, s.runsPoint n serial k = true ∧ (s.core k).finished = true ∧ s.clocked k = true) →
      ∃ u, exec (.pointEnd n serial) s = .next u ∧ u.completions = s.completions ++ [(n, serial, p.arming)] ∧
        ∀ k ∈ crewCores p.kind p.base, (u.core k).point = none ∧ ((s.shaft (shaftOf k)).reqs = [] → u.holdsLamp k = false)) ∧
    ∀ n s1, Rising s.records → (s.record n).complete = true → (s.pcb (s.record n).part).saving = false →
      s.writePaged (s.pcb (s.record n).part).firstCluster (s.record n).part (s.record n).statBase
        (statBytes (s.record n).stats 0 1024) = (s1, none) →
      ∃ u, exec (.recordDone n) s = .next u ∧ (u.record n).state = .done ∧ (u.record n).words = (s.record n).words

/-! ### Partitions, pre-emption and restore -/

namespace Sys2Proof.Claims

/-- Core k lies in a cluster of the partition control block. -/
def member (b : Pcb) (k : Nat) : Prop := k < 2048 ∧ b.clusters.getLsbD (clusterOf k) = true

end Sys2Proof.Claims

/-- R371 and R372, with errors in the order of log 48, which R371 leaves open (the seal first, then the state, then the save area): PREEMPT
of a formed partition with a save area, which nothing holds up and whose cores have no completed phase to follow, starts a save: the save number rises, every
core that runs a point of the partition is asked to stop, and no byte of memory changes. A sealed one refuses with error 4, another
state with error 2, no save area with error 3. RESTORE of a saved partition starts its restore, and refuses alike. RELEASE lets the
halted cores without a point go on. -/
def Obligations.PreemptionCommands : Prop :=
  ∀ (s : State) (p : Nat), p < 128 →
    let b := s.pcb p
    let busy := b.formed = false ∨ b.saved = true ∨ b.saving = true ∨ b.restoring = true
    (b.isSealed = false → ¬ busy → b.saveBase ≠ 0 → (∀ w ∈ s.waiters, s.overdue w = false) → (∀ k, s.lateCarves k = []) → ∃ u, exec (.preempt p) s = .next u ∧
      (u.pcb p).saving = true ∧ (u.pcb p).saveStopped = false ∧ (u.pcb p).saveNo = (b.saveNo + 1) % 2 ^ 31 ∧ (u.pcb p).err = 0 ∧
      (∀ k, (s.core k).point.isSome = true → (s.core k).part = p → (u.core k).stop = true) ∧ SameMemory s u) ∧
    (b.isSealed = true → exec (.preempt p) s = .next (s.setPcb p { b with err := 4 }) ∧
      exec (.restore p) s = .next (s.setPcb p { b with err := 4 })) ∧
    (b.isSealed = false → busy → exec (.preempt p) s = .next (s.setPcb p { b with err := 2 })) ∧
    (b.isSealed = false → ¬ busy → b.saveBase = 0 → exec (.preempt p) s = .next (s.setPcb p { b with err := 3 })) ∧
    (b.isSealed = false → b.saved = true → b.saving = false → b.restoring = false →
      exec (.restore p) s = .next (s.setPcb p { b with restoring := true, isLost := false, err := 0 })) ∧
    (b.isSealed = false → b.saved = false → exec (.restore p) s = .next (s.setPcb p { b with err := 2 })) ∧
    (b.saving = false → b.restoring = false → b.formed = true → ∃ u, exec (.release p) s = .next u ∧ (u.pcb p).err = 0 ∧
      ∀ k, (member b k → (s.core k).halted = true → (s.core k).point = none → u.core k = { s.core k with halted := false }) ∧
        (¬ member b k ∨ (s.core k).halted = false ∨ (s.core k).point.isSome = true → u.core k = s.core k)) ∧
    (b.saving = true ∨ b.restoring = true → exec (.release p) s = .next (s.setPcb p { b with err := 2 }))

/-- R135, R372 and R374: once every core has acknowledged the stop, a point of which no core has taken an action of R135 is cancelled: its
cores are idle. That the arrived completions are recorded first is the model's choice (log 52). -/
def Sys2Proof.Claims.SaveStops : Prop :=
  ∀ (s : State) (p : Nat), (s.pcb p).saving = true → (s.pcb p).saveStopped = false → s.allStopped p = true →
    ∃ u, exec (.saveStopped p) s = .next u ∧ (u.pcb p).saveStopped = true ∧ u.completions = [] ∧
      ∀ k x, (s.core k).point = some x → (s.core k).part = p → k ∈ crewCores x.kind x.base →
        (∀ j ∈ crewCores x.kind x.base, s.runsPoint x.recNo x.serial j = true → (s.core j).committed = false) →
        (u.core k).point = none

/-- R372, R385 and R387: the end of a save leaves the partition saved, or, where its directory cannot be written, reset with LOST set. That
with no save area the images in shadow banks stay on the device, so that the save stands and the cores of its points are idle, is log 15. -/
def Sys2Proof.Claims.SaveEnds : Prop :=
  ∀ (s : State) (p : Nat) (v : Save), tfind s.saves p = some v → (s.pcb p).saving = true → (s.pcb p).saveStopped = true →
    ∃ u, exec (.saveComplete p) s = .next u ∧ (u.pcb p).saving = false ∧ (u.pcb p).saveStopped = false ∧
      ((u.pcb p).saved = true ∨ (u.pcb p).isLost = true) ∧
      ((s.pcb p).saveBase = 0 → (∀ k ∈ s.runners p, (s.core k).trapBad = false) → (u.pcb p).saved = true ∧ ∃ w, tfind u.saves p = some w ∧ w.used = 0 ∧
        ∀ i ∈ w.images, (u.core i.core).point = none)


/-- R382 and R383: the restore of a save whose one image stands sound in a shadow area, under the scan policy, gives the context that stands
on the device (log 15) back to its core: registers, tiles, accumulators, events and the point; the core's privileged registers and its panels' weights stay its own. -/
def Sys2Proof.Claims.RestoreCompletes : Prop :=
  ∀ (s : State) (p : Nat) (v : Save) (i : SavedImage), tfind s.saves p = some v → (s.pcb p).restoring = true →
    v.images = [i] → v.used = 0 → i.shadow.isSome = true → i.sound = true → i.saveNo = (s.pcb p).saveNo → i.scan = true →
    s.crewsFree v = true → ((s.record i.recNo).fired i.serial).isSome = true → i.image.carve = [] →
    (s.core i.core).carve = [] → i.image.raised = none → i.image.firstHeld = none →
    (∀ st, (i.image.stream st).wait = none) → (∀ x, i.image.point = some x → (s.record x.recNo).arming = x.arming) →
    ∃ u, exec (.restoreComplete p) s = .next u ∧ (u.pcb p).saved = false ∧ (u.pcb p).restoring = false ∧ tfind u.saves p = none ∧
      let c := u.core i.core
      let now := s.core i.core
      c.point.map (fun x => (x.recNo, x.serial, x.rank, x.coords)) = i.image.point.map (fun x => (x.recNo, x.serial, x.rank, x.coords)) ∧
        (∀ st, (c.stream st).regs = (i.image.stream st).regs ∧ (c.stream st).stack = (i.image.stream st).stack ∧
          (c.stream st).seq = (i.image.stream st).seq ∧ (c.stream st).pos.hdr = (i.image.stream st).pos.hdr ∧
          (c.stream st).pos.off = (i.image.stream st).pos.off) ∧
        c.tiles = i.image.tiles ∧ c.m0 = i.image.m0 ∧ c.m1 = i.image.m1 ∧ c.events = i.image.events ∧ c.ap = i.image.ap ∧
        c.halted = false ∧ c.priv = false ∧ c.trapvec = now.trapvec ∧ c.wdog = now.wdog ∧ c.partition = now.partition ∧
        ∀ n, (c.panel n).slow = (now.panel n).slow ∧ (c.panel n).fast = (now.panel n).fast

/-- R385 and R386: a save that overruns its deadline, and an uncorrectable error in a partition's data, reset the partition: its cores
halt without a point and with their core array empty, its live records fail, LOST is set. -/
def Sys2Proof.Claims.PartitionReset : Prop :=
  ∀ (s : State) (p : Nat), p < 128 →
    let gone (u : State) : Prop := (u.pcb p).saving = false ∧ (u.pcb p).isLost = true ∧
      (∀ k, member (s.pcb p) k → (u.core k).halted = true ∧ (u.core k).point = none ∧ (u.core k).scratch = [] ∧ (u.core k).tiles = []) ∧
      (∀ n, n ∈ (s.pcb p).slice → (s.record n).state.live = true → (u.record n).state = .faulted ∧ (u.record n).points = [])
    ((s.pcb p).saving = true → ∃ u, exec (.saveDeadline p) s = .next u ∧ gone u) ∧
    ((s.pcb p).saving = false → exec (.saveDeadline p) s = .next s) ∧
    ((s.pcb p).formed = true → ∃ u, exec (.uncorrectableError p) s = .next u ∧ gone u)

/-- R330, R332 and R333: FORM makes a partition of clusters whose cores are halted: a fresh key, KEYSLOT p + 1, the records of its slice FREE, its cores with
zeroed memory, the reset values of their privileged registers, an empty handler bank and their partition number; where a check
fails it leaves the error alone. DISSOLVE takes a formed partition apart once every core is halted and every record settled, and zeroes its memory; elsewhere it
leaves error 2. -/
def Sys2Proof.Claims.FormAndDissolve : Prop :=
  ∀ (s : State) (p : Nat), p < 128 →
    let b := s.pcb p
    let wiped (u : State) : Prop := (∀ k, member b k → (u.core k).scratch = [] ∧ (u.core k).tiles = [] ∧ (u.core k).cache = []) ∧
      (∀ c, c < 128 → b.clusters.getLsbD c = true → (u.cluster c).scratch = [] ∧ (u.cluster c).bankMode = [] ∧ (u.cluster c).fifo = []) ∧
      ∀ n ∈ b.slice, (u.record n).state = .free ∧ (u.record n).words = (s.record n).words
    (s.fwstat = 0 → s.formError p = 0 → ∃ u, exec (.form p) s = .next u ∧ (u.pcb p).formed = true ∧ (u.pcb p).err = 0 ∧
      (u.pcb p).key = s.keys + 1 ∧ (u.pcb p).keySlot = p + 1 ∧ (u.pcb p).saved = false ∧ wiped u ∧
      (∀ c n, c < 128 → b.clusters.getLsbD c = true → 1 ≤ n → n ≤ 64 → (u.phaser c n).alloc = true ∧ (u.phaser c n).part = p ∧
        (u.phaser c n).phase = 0 ∧ (u.phaser c n).bytes = false) ∧
      ∀ k, member b k → (u.core k).partition = word (p + 2 ^ 7 * bit b.isSealed + 2 ^ 8 * b.tag) ∧ (u.core k).trapvec = 0 ∧
        (u.core k).wdog = 0x04000000 ∧ (u.core k).lampmax = 65536 ∧ (u.core k).hregs = Vector.replicate 32 0 ∧
        (u.core k).hstack = []) ∧
    (s.fwstat = 0 → s.formError p ≠ 0 → exec (.form p) s = .next (s.setPcb p { b with err := s.formError p })) ∧
    (s.fwstat = 0 → b.formed = true → exec (.form p) s = .next (s.setPcb p { b with err := 2 })) ∧
    (b.formed = true → b.saving = false → b.restoring = false → (∀ k, member b k → (s.core k).halted = true) →
      (∀ n ∈ b.slice, (s.record n).state = .free ∨ (s.record n).state = .done ∨ (s.record n).state = .faulted) →
      ∃ u, exec (.dissolve p) s = .next u ∧ (u.pcb p).formed = false ∧ (u.pcb p).key = 0 ∧ (u.pcb p).keySlot = 0 ∧ wiped u ∧
        ∀ k n, member b k → (u.core k).panels.all (fun x => x.2.owner.isNone) = true ∧ ((u.core k).panel n).slow = ((s.core k).panel n).slow) ∧
    (b.formed = false ∨ b.saving = true ∨ (∃ k, member b k ∧ (s.core k).halted = false) →
      exec (.dissolve p) s = .next (s.setPcb p { b with err := 2 }))

/-- R335 and R416: an accepted write of a phaser's configuration takes its fields, a change of them starts the phaser at phase 0, and a
phaser with a participant refuses with error 5; the ordered mode of a device phaser alike. -/
def Sys2Proof.Claims.PhaserConfiguration : Prop :=
  (∀ (s : State) (cl n : Nat) (v : Word), cl < 128 → 1 ≤ n → n ≤ 320 → s.fwstat = 0 → s.phaserGuard cl n = false →
    let x := s.phaser cl n
    (x.members = [] → (v.getLsbD 0 = true → s.phaserOwner cl n (field v 2 7) = true) →
      (n ≤ 64 ∨ v.getLsbD 1 = true ∨ x.ordEn = false) →
      ∃ u, exec (.phcfgWrite cl n v) s = .next u ∧ (u.phaser cl n).alloc = v.getLsbD 0 ∧ (u.phaser cl n).bytes = v.getLsbD 1 ∧
        (u.phaser cl n).part = field v 2 7 ∧ (u.phaser cl n).err = 0 ∧
        (x.alloc ≠ v.getLsbD 0 ∨ x.bytes ≠ v.getLsbD 1 ∨ x.part ≠ field v 2 7 →
          (u.phaser cl n).phase = 0 ∧ (u.phaser cl n).posted = none ∧ (u.phaser cl n).arrived = 0)) ∧
    (x.members ≠ [] → ∃ u, exec (.phcfgWrite cl n v) s = .next u ∧ u.phaser cl n = { x with err := 5 })) ∧
  ∀ (s : State) (n : Nat) (v : Word), n < 256 → s.fwstat = 0 → s.inbound = [] →
    let x := s.dphaser n
    let lo := field v 1 19
    let count := field v 20 13
    (x.members = [] → (v.getLsbD 0 = true → x.bytes = true) → 1 ≤ count → count ≤ 4096 → lo + count ≤ 2 ^ 19 →
      ∃ u, exec (.ordcfgWrite n v) s = .next u ∧
        u.dphaser n = { x with ordEn := v.getLsbD 0, ordLo := lo, ordNsrc := count, ordErr := 0 }) ∧
    (x.members ≠ [] → ∃ u, exec (.ordcfgWrite n v) s = .next u ∧ u.dphaser n = { x with ordErr := 5 })

/-- R328, R329 and R333: the host's write to a privileged register of a halted core, through the window of a partition that is not sealed,
writes that register: the trap vector, the watchdog, the lamp limit within its bounds. A core that is not halted refuses with
error 5, a trap vector of more than 57 bits with error 3. -/
def Sys2Proof.Claims.CoreAccess : Prop :=
  ∀ (s : State) (p rank core cl : Nat) (v : Word), p < 128 → core < 16 → s.fwstat = 0 → (s.pcb p).isSealed = false →
    (s.pcb p).clusterAt rank = some cl →
    let k := 16 * cl + core
    let at' (n : Nat) : Nat := 1024 * rank + 64 * core + 8 * n
    ((s.core k).halted = true →
      (v.toNat < 2 ^ 57 → exec (.coreAccessWrite p (at' 0) v) s = .next (s.setCore k { s.core k with trapvec := v })) ∧
      (2 ^ 57 ≤ v.toNat → exec (.coreAccessWrite p (at' 0) v) s = .next (s.setPcb p { s.pcb p with err := 3 })) ∧
      exec (.coreAccessWrite p (at' 1) v) s = .next (s.setCore k { s.core k with wdog := word (v.toNat % 2 ^ 32) }) ∧
      exec (.coreAccessWrite p (at' 2) v) s =
        .next (s.setCore k { s.core k with lampmax := word (max 256 (min (2 ^ 24) v.toNat)) })) ∧
    ((s.core k).halted = false → exec (.coreAccessWrite p (at' 0) v) s = .next (s.setPcb p { s.pcb p with err := 5 }))

/-- R339, R420, R421: an accepted weight scale, a power of two from 2^-16 to 2^15, takes effect once no array operation on the panel is
in progress, and until its event the old one stands, on an idle panel too (log 58); a panel asked to retire moves onto a spare of its core
once the rails are trimmed and the shaft's lamp is held for its calibration (log 47), with s_w 1.0, and is calibrated or, where that fails,
asked to retire in turn; a nominal spare does not fail (log 23); with no spare left it is retired and counted. -/
def Sys2Proof.Claims.PanelControls : Prop :=
  ∀ (s : State) (k n : Nat),
    let c := s.core k
    let x := c.panel n
    let trimmed := s.rails = true ∧ s.cut.getLsbD (k / 512) = false ∧
      ∀ i, i < 32 → (s.cluster (32 * (k / 512) + i)).trimmed = true ∨ (s.cluster (32 * (k / 512) + i)).lost = true
    (∀ p rank cl v, p < 128 → n < 32 → s.fwstat = 0 → (s.pcb p).isSealed = false → (s.pcb p).clusterAt rank = some cl → clusterOf k = cl →
      v.toNat % 2 ^ 23 = 0 → v.getLsbD 31 = false → 111 ≤ field v 23 8 → field v 23 8 ≤ 142 →
      ∃ u, exec (.panelControlWrite p (4096 * rank + 256 * (k % 16) + 8 * n) v) s = .next u ∧
        ((u.core k).panel n).pendingSw = some (v.setWidth 32) ∧ ((u.core k).panel n).sw = x.sw ∧
        ((u.core k).panel n).retiring = (x.retiring || v.getLsbD 34)) ∧
    (∀ v, x.pendingSw = some v → c.panelActive n = false → ∃ u, exec (.weightScaleApply k n) s = .next u ∧
      ((u.core k).panel n).sw = v ∧ ((u.core k).panel n).pendingSw = none ∧ ((u.core k).panel n).slow = x.slow) ∧
    (∃ u, exec (.retire k n) s = .next u ∧ (u.core k).panel n = { x with retiring := true }) ∧
    (x.retiring = true → x.retired = false → c.panelActive n = false →
      (c.spares = 0 → ∃ u, exec (.panelRemap k n) s = .next u ∧ (u.core k).panel n = { x with retiring := false, retired := true, advise := true } ∧
        u.nret = s.nret + 1 ∧ u.advise = true) ∧
      (c.spares ≠ 0 → ¬ trimmed → exec (.panelRemap k n) s = .next s) ∧
      (c.spares ≠ 0 → trimmed → (s.shaft (shaftOf k)).cal = true → ∃ u, exec (.panelRemap k n) s = .next u ∧
        (u.core k).spares = c.spares - 1 ∧ ((u.core k).panel n).spare = true ∧ ((u.core k).panel n).sw = 0x3F800000 ∧
        ((u.core k).panel n).mask = x.mask ∧ ((u.core k).panel n).owner = x.owner ∧ ((u.core k).panel n).advise = x.advise ∧
        (((u.core k).panel n).calibrated = true ∨ ((u.core k).panel n).retiring = true) ∧
        (s.nominal = true → ((u.core k).panel n).calibrated = true ∧ ((u.core k).panel n).retiring = false)) ∧
      (c.spares ≠ 0 → trimmed → (s.shaft (shaftOf k)).cal = false → (s.shaft (shaftOf k)).lower = true → (s.shaft (shaftOf k)).upper = true →
        ∃ u, exec (.panelRemap k n) s = .next u ∧ (u.core k).panel n = x ∧ (u.core k).spares = c.spares))

/-- R148, R331 and R336: a bank command of a partition's window: a cluster of no member, a shadow bank and mode 3 are refused with errors 1, 2
and 3, in this order, which R331 leaves open (log 81); so is, with error 2, one that leaves fewer than 2 cache banks; a bank in the mode
it asks for answers at once; another one begins its switch, a scratch bank losing its bytes; behind a switch of the bank the command
waits; while a switch of the window waits or drains, another command writes the fields alone. -/
def Sys2Proof.Claims.BankCommands : Prop :=
  ∀ (s : State) (p cl n m : Nat), p < 128 → cl < 128 → n < 64 → m < 4 → s.fwstat = 0 → (s.pcb p).isSealed = false →
    let b := s.pcb p
    let idle := b.clWait = none ∧ b.clDrain = none
    let tells (e : Nat) : Out := .next (s.setPcb p { b with clCluster := cl, clBank := n, clMode := m, clErr := e })
    (¬ idle → exec (.clusterBankCommand p cl n m) s = .next (s.setPcb p { b with clCluster := cl, clBank := n, clMode := m })) ∧
    (idle → b.member cl = false → exec (.clusterBankCommand p cl n m) s = tells 1) ∧
    (idle → b.member cl = true → 64 ≤ n + (s.cluster cl).shadow → exec (.clusterBankCommand p cl n m) s = tells 2) ∧
    (idle → b.member cl = true → n + (s.cluster cl).shadow < 64 → m = 3 → exec (.clusterBankCommand p cl n m) s = tells 3) ∧
    (idle → b.member cl = true → n + (s.cluster cl).shadow < 64 → m < 3 → tfind (s.cluster cl).bankBusy n = none →
      (∀ x ∈ s.pcbs, x.2.clWait = none) → s.bankAhead cl n s.order = false → Rising s.pcbs →
      let old := tget 0 (s.cluster cl).bankMode n
      let others := ((List.range 64).filter fun x => x != n && decide (x + (s.cluster cl).shadow < 64) &&
        tget 0 (s.cluster cl).bankMode x == 0 && (tfind (s.cluster cl).bankBusy x).isNone).length
      let answers (e : Nat) : Prop :=
        ∃ u, exec (.clusterBankCommand p cl n m) s = .next u ∧ (u.pcb p).clErr = e ∧ (u.pcb p).clWait = none ∧ u.clusters = s.clusters
      (old = m → answers 0) ∧
      (old = 0 → m ≠ 0 → others < 2 → answers 2) ∧
      (old ≠ m → (old ≠ 0 ∨ 2 ≤ others) → ∃ u, exec (.clusterBankCommand p cl n m) s = .next u ∧ (u.pcb p).clErr = 0 ∧
        (u.pcb p).clWait = none ∧ (u.pcb p).clDrain = some (cl, n) ∧ tfind (u.cluster cl).bankBusy n = some m ∧
        (u.cluster cl).bankMode = (s.cluster cl).bankMode ∧
        ∀ a, tget 0 (u.cluster cl).scratch a = if old = 1 ∧ a / 524288 = n then 0 else tget 0 (s.cluster cl).scratch a)) ∧
    (idle → b.member cl = true → n + (s.cluster cl).shadow < 64 → m < 3 → (tfind (s.cluster cl).bankBusy n).isSome = true →
      ∃ u, exec (.clusterBankCommand p cl n m) s = .next u ∧ (u.pcb p).clErr = 0 ∧
        (u.pcb p).clWait = some ⟨s.order, cl, n, m⟩ ∧ u.clusters = s.clusters)

/-! ### The host -/

/-- R5, R6, R330, R331, R341, R362, R363, R395, R396, R412: writes of the registers of BAR 0: the device number once, the fault queue's
configuration and head, headframe and invalidation registers, the windows of BAR 2, routes, the words of a PCB that is not formed, the
save registers, launch data, and LCMD, which keeps its fields (log 76) and performs its command, CMD 6 and 7 left with error 3; a write
of a formed partition's PCB and of a read-only register is ignored. -/
def Sys2Proof.Claims.HostRegisters : Prop :=
  ∀ (s : State) (v : Word), s.fwstat = 0 →
    (s.devnumSet = false → exec (.devnumWrite v) s = .next { s with devnum := field v 8 19, devnumSet := true }) ∧
    (s.devnumSet = true → ∃ u, exec (.devnumWrite v) s = .next u ∧ u.devnum = s.devnum ∧ u.logCount = s.logCount + 1 ∧
      ∃ e, tfind u.log (s.logCount % 64) = some e ∧ field e.1 16 8 = 7 ∧ e.2 = 0) ∧
    (s.reports = [] →
      exec (.fqcfgWrite v) s = .next { s with
        fqLog := if 4 ≤ field v 0 5 ∧ field v 0 5 ≤ 16 then field v 0 5 else s.fqLog, fqInten := v.getLsbD 8 } ∧
      exec (.fqheadWrite v) s = .next { s with fqHead := v.toNat % 2 ^ 32 }) ∧
    (∀ p r, s.reports = [(p, r)] → (s.fqTail + 2 ^ 32 - v.toNat % 2 ^ 32) % 2 ^ 32 < 2 ^ s.fqLog →
      ∃ u, exec (.fqheadWrite v) s = .next u ∧ u.reports = [] ∧ u.fqTail = (s.fqTail + 1) % 2 ^ 32) ∧
    exec (.registerWrite 0x00100000 v) s = .next { s with dispen := v.getLsbD 0 } ∧
    exec (.registerWrite 0x00100010 v) s = .next { s with recsel := v.toNat % 2 ^ 12 } ∧
    exec (.registerWrite 0x00130008 v) s = .next { s with invVa := v.toNat % 2 ^ 57 } ∧
    exec (.registerWrite 0x00000000 v) s = .next s ∧
    (∀ n, n < 16 → ∃ u, exec (.registerWrite (0x00130200 + 16 * n) v) s = .next u ∧
      ∃ w, tfind u.windows n = some w ∧ w.part = field v 0 7 ∧ w.en = v.getLsbD 7 ∧ w.wen = v.getLsbD 8) ∧
    (∀ n, n < 16 → ∃ u, exec (.registerWrite (0x00130208 + 16 * n) v) s = .next u ∧
      ∃ w, tfind u.windows n = some w ∧ w.base = field v 32 25) ∧
    (∀ n, n < 2048 → ∃ u, exec (.registerWrite (0x00151000 + 8 * n) v) s = .next u ∧ tget 0 u.routes n = field v 0 12) ∧
    ∀ p, p < 128 →
      let b := s.pcb p
      let window (o : Nat) : Out := exec (.registerWrite (0x01000000 + 0x00100000 * p + o) v) s
      (b.formed = false → window 0x10 = .next (s.setPcb p { b with
          isSealed := v.getLsbD 1, shadow := field v 2 6, tag := field v 8 12, poolBase := field v 32 12, poolCnt := field v 44 13 }) ∧
        window 0x18 = .next (s.setPcb p { b with troot := v.toNat % 2 ^ 56 }) ∧
        ∃ u, window 0x00 = .next u ∧ ∀ n, (u.pcb p).clusters.getLsbD n = if n < 64 then v.getLsbD n else b.clusters.getLsbD n) ∧
      (b.formed = true → ∀ n, n < 8 → window (8 * n) = .next s) ∧
      (b.saving = false → b.restoring = false → window 0x48 = .next (s.setPcb p { b with saveBase := field v 6 51 * 64 })) ∧
      (v.toNat % 2 ^ 32 ≠ 0 → window 0x50 = .next (s.setPcb p { b with saveDl := v.toNat % 2 ^ 32 })) ∧
      window 0x108 = .next (s.setPcb p { b with ldata := v }) ∧ window 0x110 = .next s ∧
      let n := field v 0 12
      let s1 := s.setPcb p { b with lrec := n, lword := field v 16 5 }
      (field v 12 3 = 0 → window 0x100 = .next s1) ∧ (field v 12 3 = 1 → window 0x100 = exec (.build p n) s1) ∧
        (field v 12 3 = 2 → window 0x100 = exec (.patch p n (field v 16 5)) s1) ∧ (field v 12 3 = 3 → window 0x100 = exec (.arm p n) s1) ∧
        (field v 12 3 = 4 → window 0x100 = exec (.query p n) s1) ∧ (field v 12 3 = 5 → window 0x100 = exec (.free p n) s1) ∧
        (5 < field v 12 3 → b.isSealed = false → ∃ u, window 0x100 = .next u ∧ (u.pcb p).lerr = 3 ∧ (u.pcb p).lrec = n ∧
          (u.pcb p).lword = field v 16 5 ∧ (u.pcb p).lstate = (s.record n).state.code ∧ u.clusters = s.clusters ∧ u.cores = s.cores)

/-- R5, R6, R330, R341, R400, R410 and R418: what a read of BAR 0 returns where no sealed partition stands: the identity fields, FWSTAT, the
stage, count and cluster of bring-up, the energy counter of a tag, the words of a launch record, a partition's clusters, seal and key
slot, BUSY while a save or a restore runs (log 76: that no other command is seen at work), the state, points in flight and next serial of the record that RECSEL names; zero at a reserved offset; after a failed check, zero everywhere but at the identity fields and FWSTAT. A write is ignored then. -/
def Sys2Proof.Claims.HostReads : Prop :=
  ∀ (s : State),
    let reads (o : Nat) (p : Word → Prop) : Prop :=
      s.sealedAt o = none → ∃ u v, exec (.sealedRead o) s = .next u ∧ u.reply = .value v ∧ u.cores = s.cores ∧ SameMemory s u ∧ p v
    reads 0x00 (fun v => field v 0 8 = Config.stepping.toNat ∧ field v 8 19 = s.devnum % 2 ^ 19 ∧ field v 32 32 = 0x800) ∧
    reads 0x40 (fun v => v = word s.fwstat) ∧
    (s.fwstat = 0 →
      reads 0x48 (fun v => field v 0 3 = s.stage % 8 ∧ field v 16 7 = s.calcl % 128 ∧
        field v 8 8 = ((List.range 128).filter fun c => !(s.cluster c).lost && (List.range 512).all fun j =>
          ((s.core (16 * c + j / 32)).panel (j % 32)).calibrated || ((s.core (16 * c + j / 32)).panel (j % 32)).retired).length) ∧
      (∀ n, n < 4096 → reads (0x00148000 + 8 * n) (fun v => v = tget 0 s.energy n)) ∧
      (∀ n i, n < 4096 → i < 32 → reads (0x00400000 + 256 * n + 8 * i) (fun v => v = (s.record n).word i)) ∧
      (∀ p, p < 128 → reads (0x01000000 + 0x00100000 * p) (fun v => v = (s.pcb p).clusters.setWidth 64) ∧
        reads (0x01000010 + 0x00100000 * p) (fun v => v.getLsbD 0 = (s.pcb p).formed ∧ v.getLsbD 1 = (s.pcb p).isSealed ∧
          field v 8 12 = (s.pcb p).tag % 2 ^ 12) ∧
        reads (0x01000040 + 0x00100000 * p) (fun v => field v 0 8 = (s.pcb p).keySlot % 2 ^ 8 ∧ field v 16 8 = (s.pcb p).err % 2 ^ 8 ∧
          (v.getLsbD 24 = true ↔ (s.pcb p).saving = true ∨ (s.pcb p).restoring = true))) ∧
      (let r := s.record s.recsel
        let flying := r.points.filter fun x => !x.ended
        reads 0x00100018 (fun v => field v 0 3 = r.state.code ∧ field v 11 9 = flying.length % 2 ^ 9 ∧
          field v 20 12 = if r.isRange then (flying.filter fun x => x.crew.isSome).length % 2 ^ 12 else 0) ∧
        reads 0x00100020 (fun v => v = word (r.nser % 2 ^ 48))) ∧
      ∀ n, n < 16 → reads (0x80 + 8 * n) (fun v => v = 0)) ∧
    (s.fwstat ≠ 0 → (∀ o, 8 ≤ o → o / 8 ≠ 8 → reads o (fun v => v = 0)) ∧ ∀ o v, exec (.registerWrite o v) s = .next s)

/-- R159, R163, R396, R397: an access of the host through an enabled window of a partition that is formed and not sealed reaches the bytes of
the address at their homes, and an AtomicOp, 32 or 64 bit, updates its word there. A window disabled or not writable answers Unsupported Request, a
sealed partition reads as all ones and drops a write, a page without SA refuses an AtomicOp; none of these changes memory. That the window
is tested before the seal, and the seal before translation, is the model's reading (log 56); RECSTAT and RECSER are sealed with the record
they show (log 84). -/
def Obligations.HostWindows : Prop :=
  ∀ (s s1 : State) (n o size : Nat) (v x : Word) (ls : List Loc), n < 16 → o < 2 ^ 32 → 1 ≤ size → size ≤ 8 →
    let w := tget ⟨0, false, false, 0⟩ s.windows n
    let b := s.pcb w.part
    let cl := b.firstCluster
    let va := w.base * 2 ^ 32 + o
    let opened := w.en = true ∧ b.formed = true
    (opened → b.isSealed = false → s.locateVirtual cl w.part va size ⟨true, false, false, false, none⟩ = (s1, .ok ls) →
      ∃ u, exec (.hostWindowAccess n o size false v) s = .next u ∧ u.reply = .value (word (leNat (ls.map (s.homeGet b.key)))) ∧
        SameMemory s u) ∧
    (opened → w.wen = true → b.isSealed = false → s.memoryWf → Apart ls →
      s.locateVirtual cl w.part va size ⟨false, true, false, false, none⟩ = (s1, .ok ls) →
      ∃ u, exec (.hostWindowAccess n o size true v) s = .next u ∧ u.reply = .done ∧ SameOutside b.key ls s u ∧
        ∀ p ∈ ls.zip (leBytes size v.toNat), u.homeGet b.key p.1 = p.2) ∧
    (∀ m, m = 4 ∨ m = 8 → opened → w.wen = true → b.isSealed = false → s.memoryWf → Apart ls →
      s.locateVirtual cl w.part va m ⟨true, true, true, false, none⟩ = (s1, .ok ls) →
      let old := leNat (ls.map (s.homeGet b.key))
      let gives (op : HostAtomic) (new : Nat) : Prop := ∃ u, exec (.hostAtomicop n o m op v x) s = .next u ∧
        u.reply = .value (word old) ∧ SameOutside b.key ls s u ∧ ∀ p ∈ ls.zip (leBytes m new), u.homeGet b.key p.1 = p.2
      ((∀ l ∈ ls, l.isDirect = true) → gives .fetchAdd (old + v.toNat) ∧ gives .swap v.toNat ∧
        gives .cas (if old = x.toNat % 2 ^ (8 * m) then v.toNat else old)) ∧
      ((∃ l ∈ ls, l.isDirect = false) → ∀ op, ∃ u, exec (.hostAtomicop n o m op v x) s = .next u ∧ u.reply = .completerAbort ∧ SameMemory s u)) ∧
    (¬ opened → ∀ write, ∃ u, exec (.hostWindowAccess n o size write v) s = .next u ∧ u.reply = .unsupportedRequest ∧
      u.logCount = s.logCount + 1 ∧ SameMemory s u) ∧
    (opened → w.wen = false → ∃ u, exec (.hostWindowAccess n o size true v) s = .next u ∧ u.reply = .unsupportedRequest ∧ SameMemory s u) ∧
    (opened → b.isSealed = true →
      (∃ u, exec (.hostWindowAccess n o size false v) s = .next u ∧ u.reply = .value (-1) ∧ SameMemory s u) ∧
      (w.wen = true → ∃ u, exec (.hostWindowAccess n o size true v) s = .next u ∧ u.reply = .done ∧ SameMemory s u)) ∧
    ∀ p, s.sealedAt o = some p → ∃ u, exec (.sealedRead o) s = .next u ∧ u.reply = .value (-1) ∧ u.logCount = s.logCount + 1 ∧
      ∃ e, tfind u.log (s.logCount % 64) = some e ∧ field e.1 16 8 = 4 ∧ field e.1 24 7 = p % 128 ∧ e.2 = word o

/-- R388, R392, R393 and R395: a walk that finds a leaf puts it first in its cluster's translation cache, a fault is not cached; an
invalidation drops every cached translation of its partition whose page overlaps the page it names, or all of them, in every cluster, and is ignored while
another is in progress; BUSY clears once every access translated before has been performed, whichever entry it used (the model's reading,
log 55). -/
def Obligations.Translations : Prop :=
  ∀ (s : State),
    (∀ cl p va, cl < 128 → p < 128 → va < 2 ^ 57 →
      (s.cachedTrans cl p va = none → ∀ t, s.walk p va = .ok t →
        ∃ u, exec (.translationWalk cl p va) s = .next u ∧ (u.cluster cl).tcache.head? = some t ∧ SameMemory s u) ∧
      (s.cachedTrans cl p va = none → ∀ e, s.walk p va = .error e →
        ∃ u, exec (.translationWalk cl p va) s = .next u ∧ u.clusters = s.clusters ∧ SameMemory s u) ∧
      ((s.cachedTrans cl p va).isSome = true → exec (.translationWalk cl p va) s = .next s)) ∧
    (∀ v : Word, s.fwstat = 0 → v.getLsbD 15 = true → s.invBusy = false →
      ∃ u, exec (.invalidate v) s = .next u ∧ u.invBusy = true ∧ SameMemory s u ∧
        ∀ c t, (t ∈ (u.cluster c).tcache ↔ t ∈ (s.cluster c).tcache ∧ ¬ (t.part = field v 0 7 ∧
          (v.getLsbD 7 = true ∨
            let size := [2 ^ 16, 2 ^ 21, 2 ^ 29, 2 ^ 37].getD (field v 8 2) 0
            t.base < s.invVa / size * size + size ∧ s.invVa / size * size < t.base + t.size)))) ∧
    (∀ v : Word, s.invBusy = true → ∃ u, exec (.invalidate v) s = .next u ∧ u.clusters = s.clusters ∧ u.invBusy = true ∧ u.invAt = s.invAt) ∧
    (s.invBusy = true → (∀ k st, ∀ a ∈ (s.stream k st).accesses, s.invAt ≤ a.order0) → Rising s.cores →
      exec .invalidationDone s = .next { s with invBusy := false }) ∧
    ((∃ k st a, a ∈ (s.stream k st).accesses ∧ a.order0 < s.invAt) → exec .invalidationDone s = .next s)

/-! ### The lamp room -/

/-- R403, R404 and R411: a cluster takes a rail and clock that the ceilings allow and refuses another; the limits alike; a rail gap
stops the cluster's clock, sets RGAP and is logged, and its end lets the clock run. That the rail and clock of a trimmed cluster are in
force with the write is log 9, that a clock below 900 MHz is refused log 46. -/
def Sys2Proof.Claims.RailsAndLimits : Prop :=
  ∀ (s : State) (n : Nat) (v : Word), n < 128 → s.fwstat = 0 →
    let volts := field v 0 10
    let mhz := field v 22 12
    let ceiling := if volts < 600 then 900 else if volts < 700 then 1400 else if volts < 800 then 1800 else 2100
    let fits := 550 ≤ volts ∧ volts ≤ 850 ∧ volts % 10 = 0 ∧ 900 ≤ mhz ∧ mhz ≤ ceiling
    let low := field v 0 16
    let high := field v 16 16
    (fits → ∃ u, exec (.clpwrWrite n v) s = .next u ∧ (u.cluster n).vset = volts ∧ (u.cluster n).fset = mhz ∧
      ((s.cluster n).trimmed = true → (u.cluster n).vnow = volts ∧ (u.cluster n).fnow = mhz) ∧
      ((s.cluster n).trimmed = false → (u.cluster n).vnow = (s.cluster n).vnow ∧ (u.cluster n).fnow = (s.cluster n).fnow) ∧
      (u.cluster n).pacemin = field v 48 16 ∧ u.lrErr = 0 ∧
      (u.cluster n).rgap = ((s.cluster n).rgap && !v.getLsbD 46)) ∧
    (¬ fits → exec (.clpwrWrite n v) s = .next { s with lrErr := 3 }) ∧
    (500 ≤ low → low ≤ 1500 → low ≤ high → high ≤ 1900 → ∃ u, exec (.lrctlWrite v) s = .next u ∧ u.psust = low ∧ u.psprint = high ∧
      u.spen = v.getLsbD 32 ∧ u.lrErr = 0) ∧
    (low < 500 ∨ 1500 < low ∨ high < low ∨ 1900 < high → exec (.lrctlWrite v) s = .next { s with lrErr := 3 }) ∧
    (∃ u, exec (.railGap n) s = .next u ∧ (u.cluster n).stopped = true ∧ (u.cluster n).rgap = true ∧
      tfind u.log (s.logCount % 64) = some (word (8 * 2 ^ 16 + 2 ^ 31), word n)) ∧
    ((∀ w ∈ s.waiters, s.overdue w = false) → (∀ k, s.lateCarves k = []) → (∀ k, k / 16 = n → (s.core k).stop = false) →
      exec (.railGapRestored n) s = .next (s.setCluster n { s.cluster n with stopped := false }))

/-- R131, R134, R405 and R407: a twin that has waited its limit gets the lamp of an idle holder, but not while its cluster's clock stands; a sprint that reaches its limit, becomes hot or,
as the oldest, meets an average above the sprint limit ends, with its older grant kept and the cool-down begun; while the average is
above the limit no sprint begins; the marks of a shaft follow its temperature, and at 105 degrees the partitions on it are saved. -/
def Sys2Proof.Claims.LampRoomEvents : Prop :=
  ∀ (s : State) (n : Nat), n < 1024 →
    let h := s.shaft n
    (∀ k, shaftOf k = n → s.clocked k = true → h.reqs = [k] → h.cal = false → (s.core k).stop = false → s.holdsLamp k = false → s.holdsLamp (twinOf k) = true → (s.core (twinOf k)).heavyRunning = false →
      ∃ u, exec (.lampmaxExpiry k) s = .next u ∧ u.holdsLamp k = true ∧ u.holdsLamp (twinOf k) = false) ∧
    (∀ k, shaftOf k = n → s.clocked k = false → exec (.lampmaxExpiry k) s = .next s) ∧
    (h.lower = true → h.upper = true → ∃ u, exec (.sprintLimit n) s = .next u ∧ (u.shaft n).cool = true ∧
      (u.shaft n).lower = (h.older % 2 == 0) ∧ (u.shaft n).upper = (h.older % 2 == 1)) ∧
    (h.lower = false ∨ h.upper = false → exec (.sprintLimit n) s = .next s) ∧
    ((∀ k ∈ h.reqs, (s.core k).stop = false) → ∃ u, exec (.cooldownEnd n) s = .next u ∧ (u.shaft n).cool = false) ∧
    (∀ w, w < 65536 → ∃ u, exec (.pavgUpdate w) s = .next u ∧ u.pavg = w ∧
      (s.psprint < w → (∀ m, (u.shaft m).both = true → (s.shaft m).both = true) ∧
        (h.both = true → Rising s.shafts → (∀ m, m ≠ n → (s.shaft m).both = true → h.sprintAt < (s.shaft m).sprintAt) →
          (u.shaft n).both = false))) ∧
    ∀ d, d < 115 → s.cut.getLsbD (n / 256) = false → ∃ u, exec (.tempSample n d) s = .next u ∧ (u.shaft n).temp = d ∧
      ((u.shaft n).hot = true ↔ 95 ≤ d ∨ (h.hot = true ∧ 90 ≤ d)) ∧ ((u.shaft n).throt = true ↔ 100 ≤ d ∨ (h.throt = true ∧ 95 ≤ d)) ∧
      (95 ≤ d → h.hot = false → (u.shaft n).both = false) ∧
      (105 ≤ d → h.emerg = false → ∀ k, shaftOf k = n → (s.core k).point.isSome = true →
        let b := s.pcb (s.core k).part
        b.formed = true → b.saved = false → b.saving = false → b.restoring = false →
        (∀ w ∈ s.waiters, s.overdue w = false) → (∀ j, s.lateCarves j = []) → (u.pcb (s.core k).part).saving = true ∧ (u.pcb (s.core k).part).emerg = true)

/-! ### Security, links and bring-up -/

/-- R401 and R402: what the responder answers in service to each request of R401; a fifth session is refused with Busy, a command outside an
established session as unsupported; where a check of R400 failed nothing is answered. (The digest, the signature and the measurements
are free functions of what the model takes them of, log 13; that block 3 is a raw number, and that an absent block or a FINISH without a
session is answered as invalid, is log 86: the model's choices.) -/
def Obligations.SpdmRequests : Prop :=
  ∀ (s : State) (x p r : Nat),
    let answers (i : Instr) (a : SpdmReply) : Prop := (s.fwstat = 0 → exec i s = .next { s with spdm := a }) ∧ (s.fwstat ≠ 0 → exec i s = .next s)
    answers .getVersion (.version 1 3) ∧ answers .getCapabilities .capabilities ∧ answers .negotiateAlgorithms (.algorithms [.slhDsaShake256s, .mlKem1024, .sha3_384, .aes256Gcm]) ∧
      answers .getDigests (.digests (Config.sha3 s.chain.toNat)) ∧ answers (.getCertificate 0) (.certificate 0 s.chain) ∧
      answers (.challenge x) (.challengeAuth (Config.signature (Nat.pair 1 (Nat.pair x s.fwContent)))) ∧
      answers (.spdmOtherRequest x) .unsupportedRequest ∧
      answers (.getMeasurements 2) (.measurements [(2, s.fwDigest, s.fwVersion)]) ∧
      (∀ m, p < 128 → tfind s.measured p = some m → answers (.getMeasurements (16 + p))
        (match m with
        | some n => .measurements [(16 + p, Config.shake256 (Nat.pair 4 n), 0)]
        | none => .invalidRequest)) ∧
      (p < 128 → tfind s.measured p = none → answers (.getMeasurements (16 + p))
        (if (s.pcb p).formed then .measurements [(16 + p, Config.shake256 (Nat.pair 4 (s.pcb p).formNo), 0)] else .invalidRequest)) ∧
      (4 ≤ s.sessions.length → answers (.keyExchange x) .busy) ∧
      (s.fwstat = 0 → s.sessions.length < 4 → ∃ u, exec (.keyExchange x) s = .next u ∧ u.spdm = .keyExchange s.nextSession ∧
        u.sessions = s.sessions ++ [(s.nextSession, false)]) ∧
      (s.fwstat = 0 → s.sessions.contains (x, false) = true → ∃ u, exec (.finish x) s = .next u ∧ u.spdm = .finished x ∧
        u.sessions.contains (x, true) = true ∧ u.sessions.contains (x, false) = false) ∧
      (s.sessions.contains (x, false) = false → answers (.finish x) .invalidRequest) ∧
      (s.sessions.contains (x, true) = false → answers (.vendorDefinedRequest x p r .query) .unsupportedRequest) ∧
      (s.fwstat = 0 → s.sessions.contains (x, true) = true → p < 128 → r < 4096 → (s.pcb p).holds r = true → (s.record r).state = .free →
        ∃ u, exec (.vendorDefinedRequest x p r .build) s = .next u ∧ (u.record r).state = .built ∧ u.spdm = .vendor 0 RecState.built.code)

/-- R412 to R414, R294: a port counts its retries up to its greatest value, an enabled port changes state and a disabled one stands
disabled; a chunk for a device without a number, or for a phaser that does not take it, is discarded, one whose turn has not come
waits, and a plain one whose turn has come is written at its homes, found through the tables of its phaser's partition (the model's choice,
log 21), and its bytes are counted; a failed ring hop loses the clusters of the stack of its number (PRESUMED, log 25). -/
def Obligations.LinkEvents : Prop :=
  ∀ (s : State),
    (∀ n v, n < 12 →
      let p := s.port n
      (∃ u, exec (.linkRetry n) s = .next u ∧ u.port n = { p with retry := min (2 ^ 32 - 1) (p.retry + 1) }) ∧
      (∀ x y, x < 3 → y < 2 ^ 19 → p.en = true → ∃ u, exec (.portStateChange n x y) s = .next u ∧
        u.port n = { p with state := x, peer := if x = 2 then y else 0 }) ∧
      (∀ x y, p.en = false → exec (.portStateChange n x y) s = .next s) ∧
      (s.fwstat = 0 → ∃ u, exec (.ibportWrite n v) s = .next u ∧ (u.port n).en = v.getLsbD 2 ∧ (v.getLsbD 2 = false → (u.port n).state = 3 ∧ (u.port n).peer = 0) ∧
        (u.port n).retry = p.retry)) ∧
    (∀ dev (c : RemoteChunk), dev < 2 ^ 19 →
      let ph := s.dphaser (c.phaser - 65)
      let b := s.pcb ph.part
      (s.devnumSet = false ∨ ¬ (65 ≤ c.phaser ∧ c.phaser ≤ 320) ∨ ph.alloc = false ∨ ph.bytes = false ∨ ph.contributes dev = false →
        exec (.remoteChunkArrival dev c) s = .next s) ∧
      (s.devnumSet = true → s.chunkTaken dev c = true → ph.turnOf dev = false →
        (∀ x ∈ s.inbound, (s.dphaser (x.2.phaser - 65)).turnOf x.1 = false) →
        exec (.remoteChunkArrival dev c) s = .next { s with inbound := s.inbound ++ [(dev, c)] }) ∧
      ∀ s1 ls e, s.devnumSet = true → s.chunkTaken dev c = true → ph.turnOf dev = true → s.inbound = [] → s.memoryWf → c.add = false →
        e.half = none → Apart ls → s.chunkHomes b.firstCluster ph.part c c.elems = (s1, some [(ls, e)]) →
        ∃ u, exec (.remoteChunkArrival dev c) s = .next u ∧ (∀ p ∈ ls.zip e.bytes, u.homeGet b.key p.1 = p.2) ∧
          SameOutside b.key ls s u ∧
          (u.dphaser (c.phaser - 65)).arrived = ph.arrived + chunkBytes c) ∧
    ∀ hop, hop < 4 → ∃ u, exec (.ringHopFailure hop) s = .next u ∧ u.advise = true ∧ SameMemory s u ∧
      ∀ c, (c / 32 = hop → (u.cluster c).lost = true) ∧ (c / 32 ≠ hop → u.cluster c = s.cluster c)

/-- R75, R399, R400, R418 to R421 and R245: a reset leaves the panels' weights, the stored bytes and the host's memory, forms nothing, halts every
core, draws a fresh system key, and its checks decide whether the firmware may start; the start is stage 1 with every cluster at 900 MHz and no
panel calibrated; trimmed rails end stage 1; a panel calibrated in its cluster's turn joins service with fresh generators, one that fails is to be retired; a power-off
keeps the slow weights, in the nominal model unchanged. That lost clusters are left out of the stages is log 47; what survives a reset,
and the order of its checks, is log 57. -/
def Obligations.BringUpEvents : Prop :=
  ∀ (s : State),
    (∀ image : FlashImage, ∃ u, exec (.deviceReset image) s = .next u ∧ u.stage = 0 ∧ u.pcbs = [] ∧ u.records = [] ∧ u.hbm = s.hbm ∧ u.host = s.host ∧
      u.keys = s.keys + 1 ∧ u.nret = s.nret ∧
      u.fwstat = (if image.readable = false then 3 else if image.signed = false then 1 else if image.version < Config.fusedVersion then 2 else 0) ∧
      u.fwReady = (u.fwstat == 0) ∧
      ∀ k, (u.core k).halted = true ∧ (u.core k).point = none ∧ (u.core k).scratch = [] ∧
        ∀ n, ((u.core k).panel n).slow = ((s.core k).panel n).slow ∧ ((u.core k).panel n).calibrated = false ∧
          ((u.core k).panel n).sw = 0x3F800000 ∧ ((u.core k).panel n).retiring = false) ∧
    (s.fwReady = true → ∃ u, exec .firmwareStart s = .next u ∧ u.fwReady = false ∧
      ((∃ c, c < 128 ∧ (u.cluster c).lost = false) → u.stage = 1) ∧
      (∀ c, c < 128 → (u.cluster c).vnow = 570 ∧ (u.cluster c).fnow = 900 ∧ (u.cluster c).trimmed = false) ∧
      ∀ k n, ((u.core k).panel n).calibrated = false) ∧
    (s.fwReady = false → exec .firmwareStart s = .next s) ∧
    (∀ c, c < 128 → s.stage ≠ 0 → (s.cluster c).trimmed = false → (s.cluster c).lost = false →
      ∃ u, exec (.railTrimDone c) s = .next u ∧ (u.cluster c).vnow = 750 ∧ (u.cluster c).fnow = 1800 ∧ (u.cluster c).trimmed = true ∧
        (s.stage = 1 → (∀ j, j < 128 → j ≠ c → (s.cluster j).trimmed = true ∨ (s.cluster j).lost = true) → 2 ≤ u.stage)) ∧
    (∀ k n ok, k < 2048 → n < 32 → s.rails = true → s.cut.getLsbD (k / 512) = false →
      (∀ i, i < 32 → (s.cluster (32 * (k / 512) + i)).trimmed = true ∨ (s.cluster (32 * (k / 512) + i)).lost = true) →
      s.calcl = clusterOf k → (s.cluster (clusterOf k)).lost = false →
      (s.shaft (shaftOf k)).cal = true → ((s.core k).panel n).calibrated = false → ((s.core k).panel n).retired = false →
      ((s.core k).panel n).retiring = false → ∃ u, exec (.panelCalDone k n ok) s = .next u ∧
        (ok = true → ((u.core k).panel n).calibrated = true ∧ ((u.core k).panel n).rowGen = zeroSubstitute ∧
          ((u.core k).panel n).colGen = zeroSubstitute) ∧
        (ok = false → (u.core k).panel n = { (s.core k).panel n with retiring := true })) ∧
    ∃ u, exec .powerOff s = .next u ∧ u.stage = 0 ∧ u.pcbs = [] ∧ u.nret = s.nret ∧
      ∀ k n, s.nominal = true → k < 2048 → n < 32 → ((u.core k).panel n).slow = ((s.core k).panel n).slow

/-! ### Encodings, reset and what every step keeps -/

/-- R82 to R102: words written out from the rulers, one of each format, are the instructions they stand for. -/
def Obligations.WordsDecode : Prop :=
  decodeTableWord 16 0b0_00010_00011_00101 = some (.add16 3 5) ∧
  decodeTableWord 32 0b1_000_00_00001_00010_00011_00000_000001 = some (.sub 1 2 3) ∧
  decodeTableWord 32 0b1_000_01_00001_00010_0000_111111111111 = some (.addi 1 2 0xFFF) ∧
  decodeTableWord 32 0b1_000_10_00100_10_000_1011111011101111 = some (.ldi 4 2 0xBEEF) ∧
  decodeTableWord 32 0b1_000_11_00001_00010_0001_000000000011 = some (.bne 1 2 3) ∧
  decodeTableWord 32 0b1_001_0_00101_00110_00000111_0100_01_000 = some (.ldw 5 6 7 1) ∧
  decodeTableWord 32 0b1_001_1_00101_00110_00000111_00000_00_1_0 = some (.atadd 5 6 7 0 1) ∧
  decodeTableWord 32 0b1_010_0_00000_00000_000011_00000000000 = some (.waitc 0 0 0 0) ∧
  decodeTableWord 32 0b1_010_1_00011_00000_00000_000101100011 = some (.srd 3 0x163) ∧
  decodeTableWord 32 0b1_011_0000_00001000_00010010_00011100 = some (.tadd 0x08 0x12 0x1C) ∧
  decodeTableWord 32 0b1_100_00_00001_00001000_00010000_00000 = some (.tneg 0x08 0x10) ∧
  decodeTableWord 32 0b1_100_01_000_1_00000000_00100000_0_0_00_00 = some (.tmma 1 0x00 0x20) ∧
  decodeTableWord 32 0b1_100_10_0000_00001000_00010000_01_1_010 = some (.tcvt 0x08 0x10 1 1 2) ∧
  decodeTableWord 32 0b1_100_11_00111_00001000_00010_00011_000 = some (.tget 0x08 2 3) ∧
  decodeTableWord 32 0b1_101_0000_00010_00000000_00100000_0_00 = some (.afwd 2 0 0 1 0 0) ∧
  decodeTableWord 32 0b1_110_001_00001_10_00010100_01001_01011 = some (.hst 1 2 20 9 11) ∧
  decodeTableWord 32 0b1_111_0000_00000110_00000010_01100_000 = some (.hcpy 6 2 12)

/-- R77 and R82 to R102: every well-formed instruction that has an encoding decodes from the bytes memory holds for it, with every operand. -/
def Obligations.EncodeThenDecode : Prop :=
  ∀ (i : Instr) (nbits w : Nat), i.wf = true → encode i = some (nbits, w) → decode (parcelBytes nbits w) = .ok (i, [])

/-- R77 and R82 to R103: bytes that decode are exactly the encoding of the well-formed instruction they give, and what follows it: no bit of a
parcel is passed over. -/
def Obligations.DecodeThenEncode : Prop :=
  ∀ (bs rest : List Byte) (i : Instr), decode bs = .ok (i, rest) →
    i.wf = true ∧ ∃ nbits w, encode i = some (nbits, w) ∧ bs = parcelBytes nbits w ++ rest

/-- What reset leaves: cores halted and without a point (the model's choice, log 2), tile count 24, scalar registers, call stacks and counts
zero or empty, the array parameters of R70, %tround 0, %tsrb 16,
%tclamp the largest finite FP32, %wdog 2^26 and %lampmax 65,536, %trapvec 0, %partition 0 (the model's choice, log 2), events clear, generators at the substitute of R53,
tiles of zero data, accumulators of +0, lamps free, banks in cache mode, phasers not allocated, queues disabled with the least sump,
records FREE, no partition formed, dispatch enabled, the lamp room's limits, no device number, stage 0. -/
def Obligations.ResetValues : Prop :=
  let s := State.reset
  (∀ k, let c := s.core k
    c.halted = true ∧ c.point = none ∧ c.priv = false ∧ c.ntiles = 24 ∧ c.tround = 0 ∧ c.tsrb = 16 ∧ c.tclamp = 0x7F7FFFFF ∧
    c.wdog = 0x04000000 ∧ c.lampmax = 65536 ∧ c.trapvec = 0 ∧ c.partition = 0 ∧ c.events = 0 ∧ c.gen = 0x9E3779B97F4A7C15 ∧
    (∀ t, (c.tile t).data = [] ∧ (c.tile t).full = false ∧ (c.tile t).fmt = 1 ∧ (c.tile t).rows1 = 127 ∧ (c.tile t).cols1 = 127) ∧
    c.ap.toList = [1, 1, 0x3F800000, 0x3F800000, 0x3F800000, 1, 0x3F800000, 2032, 0, 512, 0x3F800000, 0, 1, 0, 512, 0, 0, 0, 0, 0, 16, 0x3B800000, 0, 0] ∧
    c.m0.elems = [] ∧ c.m1.elems = [] ∧ c.spares = 2 ∧ (∀ p, (c.panel p).calibrated = false) ∧ s.holdsLamp k = false ∧
    ∀ st, (c.stream st).stack = [] ∧ (c.stream st).seq = 0 ∧ (c.stream st).pace = 0 ∧ ∀ r, s.reg k st r = 0) ∧
  (∀ n, let c := s.cluster n
    (∀ b, tget 0 c.bankMode b = 0) ∧ c.shadow = 0 ∧ c.scratch = [] ∧ (∀ m, (s.phaser n m).alloc = false) ∧
      ∀ q, (s.queue (4 * n + q)).en = false ∧ (s.queue (4 * n + q)).slog = 6) ∧
  (∀ r, (s.record r).state = .free) ∧
  (∀ p, let b := s.pcb p
    b.formed = false ∧ b.clusters = 0 ∧ b.saveDl = 0x00100000 ∧ b.saved = false) ∧
  s.dispen = true ∧ s.fqLog = 4 ∧ s.psust = 1500 ∧ s.psprint = 1900 ∧ s.spen = true ∧ s.devnumSet = false ∧ s.stage = 0 ∧ s.memoryWf

/-- Every step keeps the device's memories in their canonical form: addresses that rise, and no byte listed that an unlisted address reads as; so
equal memories are equal lists. -/
def Obligations.MemoryStaysCanonical : Prop :=
  ∀ (s t : State), s.memoryWf → step s = .next t → t.memoryWf

/-! ### Statements of several parts -/

/-- Each SR function but the divisions writes the result of exact arithmetic on its operands, lane adds and bit counts included. -/
def Obligations.ScalarArithmetic : Prop :=
  Claims.ScalarArithmetic ∧ Claims.ScalarLanes ∧ Claims.ScalarBitCounts

/-- SI, MV and 16-bit forms write what their immediates give; INSI stalls on its own pending destination. -/
def Obligations.ScalarImmediates : Prop :=
  Claims.ScalarImmediates ∧ Claims.HalfwordStall ∧ Claims.ScalarShortForms

/-- A scalar instruction writes its one register and nothing else; s0 discards; a pending register stalls it. -/
def Obligations.ScalarFrame : Prop :=
  Claims.ScalarRegisterWrite ∧ Claims.ScalarFrame ∧ Claims.ScalarStall

/-- Conditional branches compare as R173 says, transfer or go on or raise reason 6. -/
def Obligations.Branches : Prop :=
  Claims.ConditionalBranches

/-- Transfers go, push and pop, also to a word whose fetch fails (log 17); depth traps; no register or memory changes; RLABEL records its block. -/
def Obligations.Transfers : Prop :=
  Claims.UnconditionalTransfers ∧ Claims.BranchBeforeFault ∧ Claims.CallDepth ∧ Claims.TransferFrame ∧ Claims.ResumeLabel

/-- A block is entered with the length and count of its header; that a step runs the oldest event due before any turn is the model's
choice (log 1). -/
def Obligations.BlockEntry : Prop :=
  Claims.BlockEntry ∧ Claims.StepRunsEvents

/-- R73: where an element lies. A load or store whose checks pass issues an access to the bytes at the address its layout gives, through the
pages that it crosses. -/
def Obligations.MemoryIssue : Prop :=
  Claims.LayoutAddress ∧ Claims.MemoryIssue ∧ Claims.ElementAddress ∧ Claims.TranslatedBytes

/-- An access outside its extents is filled or dropped, full/empty operations and atomics too; a load or store whose check fails raises the
cause of that check. -/
def Obligations.MemoryRefusals : Prop :=
  Claims.OutOfBounds ∧ Claims.OutOfBoundsWords ∧ Claims.MemoryTraps

/-- A load writes its bytes extended to its register alone, a store writes its bytes alone. -/
def Obligations.LoadsAndStores : Prop :=
  Claims.LoadReturns ∧ Claims.StorePerformed

/-- Atomics issue, update their word at its home as the table of R184 says, and return the old word. -/
def Obligations.Atomics : Prop :=
  Claims.AtomicIssue ∧ Claims.AtomicPerformed ∧ Claims.AtomicReturns

/-- Full/empty operations whose condition holds take effect, with the right to read or to write alone (the model's reading, log 70); FIFO
banks give their head and take at their tail. -/
def Obligations.WordsAndFifos : Prop :=
  Claims.FullEmptyWords ∧ Claims.FifoServed

/-- EPOST sets an event and releases its waiters as R67 orders them; EWAIT and EWAITK complete or wait; WAITC completes exactly where its
four counters allow; JOIN retires all streams of its mask together or waits. -/
def Obligations.EventsAndMeetings : Prop :=
  Claims.EventPost ∧ Claims.EventWait ∧ Claims.CounterWait ∧ Claims.Meetings


/-- Phaser registration, roles, leaving, signals, waits and posted byte counts; a ready phase completes and the next is current with
nothing signalled, posted or arrived; which phases are done. (That an acquire discards every clean byte of the core is log 8; that a
PHNEXT commits its point only when its phase completes, and takes its signal back if it is abandoned, is the model's reading, log 33.) -/
def Obligations.Phasers : Prop :=
  Claims.PhaserInstructions ∧ Claims.ExpectedBytes ∧ Claims.PhaseOrder ∧ Claims.PhaseCompletes


/-- CARVE asks for a tile count, PEND ends a stream, RNEXT, PCOORD and PSELF answer from the point; LAMPQ, LAMPREL and LAMPST; WRD and WWR
of the window registers both twins share. (That CARVEs naming other phases stay pending is log 35; that PEND leaves the count of events
that make its point RESUME as it was log 78; which of several held tickets it reports log 87: the model's choices.) -/
def Obligations.PointInstructions : Prop :=
  Claims.CarveRequest ∧ Claims.PointPartEnds ∧ Claims.PointQueries ∧ Claims.LampInstructions ∧ Claims.WindowRegisters


/-- SRD reads every state register; SWR writes the registers that may be written; both reach the privileged ones in the handler alone;
PACE. (The offset that %spos reads, modulo 128, is log 28.) -/
def Obligations.StateRegisters : Prop :=
  Claims.StateRegisterRead ∧ Claims.PrivilegedRead ∧ Claims.StateRegisterWrite ∧ Claims.PrivilegedWrite ∧ Claims.PaceWrite

/-- Taking a trap: the four trap registers, privileged state, the handler block, and everything else unchanged; a PHNEXT stopped by it has had
no effect. (The offset in %trappc, modulo 128, is log 28.) -/
def Obligations.TrapEntry : Prop :=
  Claims.TrapEntry ∧ Claims.TrapEntryEvent ∧ Claims.TrapStopsNext

/-- TRAP, BKPT and CHK take their causes; RETT gives the streams back or enters the next held trap. -/
def Obligations.TrapsAndReturn : Prop :=
  Claims.UserTraps ∧ Claims.TrapReturn

/-- HALT stops the core once nothing is outstanding; a trap of the handler is a double fault; the watchdog and the freeze. -/
def Obligations.CoreStops : Prop :=
  Claims.CoreHalts ∧ Claims.DoubleFault ∧ Claims.StallEvents

/-- BANK starts a switch and waits for it; the drained bank takes its mode empty. -/
def Obligations.BankSwitch : Prop :=
  Claims.BankSwitch ∧ Claims.BankSwitchEnds

/-- A tile instruction the vector unit can take claims its tiles and retires; one that waits claims later as it issued. -/
def Obligations.TileIssue : Prop :=
  Claims.TileIssue ∧ Claims.TileRetry ∧ Claims.TileClaims

/-- Products accumulate block by block; a finished TM instruction completes; TDRAINM adds the drain shape into memory. (The sign of an
exact zero in TDRAIN.acc is log 63, the status bits of block sums log 37.) -/
def Obligations.MatrixWork : Prop :=
  Claims.MatrixProducts ∧ Claims.MatrixCompletes ∧ Claims.DrainToMemory


/-- ASET writes and reads the array parameters; an array instruction whose panel is ready issues with a copy of them, at once or after its
wait. -/
def Obligations.ArrayIssue : Prop :=
  Claims.ArrayParameters ∧ Claims.ArrayIssue ∧ Claims.ArrayRetry

/-- Array operations go through their stop units and complete with ap.stat. -/
def Obligations.ArrayWork : Prop :=
  Claims.ArrayUnits ∧ Claims.ArrayCompletes

/-- Copies start, move their chunks in order and end with a completion value in their token. -/
def Obligations.HoistWork : Prop :=
  Claims.HoistCopies ∧ Claims.HoistChunks

/-- A crew starts its point together with the start state; finished points and records end. -/
def Obligations.PointsStartAndEnd : Prop :=
  Claims.PointStarts ∧ Claims.PointsEnd

/-- The cut, the end of a save, and the context a restore gives back; that a save stands on the device without a save area is log 15, and
that completions are recorded before the cut log 52. -/
def Obligations.SaveAndRestore : Prop :=
  Claims.SaveStops ∧ Claims.SaveEnds ∧ Claims.RestoreCompletes

/-- FORM, DISSOLVE and the reset of a partition. -/
def Obligations.PartitionLife : Prop :=
  Claims.PartitionReset ∧ Claims.FormAndDissolve

/-- Phaser configuration, ordered mode and bank commands of the windows, their errors 1, 2 and 3 in the order of log 81. -/
def Obligations.ClusterConfiguration : Prop :=
  Claims.PhaserConfiguration ∧ Claims.BankCommands

/-- Privileged registers of halted cores, weight scales, retirement and remapping of panels. (Log 58: an accepted scale waits for its event;
log 23: what a spare starts with, and that a nominal one does not fail; log 47: when a panel is remapped.) -/
def Obligations.CoreAndPanelControls : Prop :=
  Claims.CoreAccess ∧ Claims.PanelControls

/-- Rails, clocks, limits, gaps, sprints, averages and temperature marks. (A new rail and clock in force with the write is log 9, the refusal
of a clock below 900 MHz log 46.) -/
def Obligations.LampRoom : Prop :=
  Claims.RailsAndLimits ∧ Claims.LampRoomEvents

/-- R211, R220, R221, R231 to R234: TM instructions enter the matrix unit, up to four; XSW exchanges one tile of two twins. (That the
instruction at work counts among the four is the model's reading, log 39.) -/
def Obligations.MatrixIssue : Prop :=
  Claims.MatrixIssue ∧ Claims.TileExchange

/-- The producers and the consumers of task queues, a full queue, the slots of its sump and VOID records at its head. -/
def Obligations.QueueInstructions : Prop :=
  Claims.QueueProducers ∧ Claims.FullQueue ∧ Claims.SumpSlots ∧ Claims.QueueConsumers

/-- The registers of a queue, its kill and what it resumes; that a killed context stands halted without a point is log 18. -/
def Obligations.QueueRegisters : Prop :=
  Claims.QueueConfiguration ∧ Claims.ContextKilled

/-- The launch instructions, and the launch commands of the host. (That a command refused with both error 1 and error 4 leaves 1 is the
model's choice, log 95.) -/
def Obligations.Launches : Prop :=
  Claims.LaunchRequests ∧ Claims.HostLaunchCommands

/-- What the host writes into BAR 0, and what it reads there. (That BUSY of a PCB reads 1 exactly while a save or a restore runs, and that
LCMD keeps REC and WORD whatever its CMD, is the model's reading, log 76; that CMD 6 and 7 leave error 3 its choice, log 95.) -/
def Obligations.HostRegisters : Prop :=
  Claims.HostRegisters ∧ Claims.HostReads
end

