-- ==== Sys2Proof/Laws/Table.lean ====
section
/-! SUPPORT. Tables: what each operation reads back as, and that it keeps the canonical form. -/

namespace Sys2Proof.Machine

/-! ### Reading back -/

@[simp] theorem tfind_nil {α : Type} (k : Nat) : tfind ([] : Tbl α) k = none := rfl

@[simp] theorem tget_nil {α : Type} (d : α) (k : Nat) : tget d [] k = d := rfl

@[simp] theorem tfind_tput_self {α : Type} (t : Tbl α) (k : Nat) (v : α) : tfind (tput t k v) k = some v := by
  induction t with
  | nil => simp [tput, tfind]
  | cons x t ih =>
    obtain ⟨k', v'⟩ := x
    simp only [tput]
    split
    · simp [tfind]
    · split
      · simp [tfind]
      · simp [tfind, *]

theorem tfind_tput_ne {α : Type} (t : Tbl α) {k j : Nat} (v : α) (h : j ≠ k) : tfind (tput t k v) j = tfind t j := by
  induction t with
  | nil => simp [tput, tfind, h]
  | cons x t ih =>
    obtain ⟨k', v'⟩ := x
    simp only [tput]
    split
    · subst k'; simp [tfind, h]
    · split
      · simp [tfind, h]
      · simp [tfind, ih]

theorem tfind_tput {α : Type} (t : Tbl α) (k j : Nat) (v : α) :
    tfind (tput t k v) j = if j = k then some v else tfind t j := by
  split
  · subst j; simp
  · exact tfind_tput_ne t v ‹_›

@[simp] theorem tget_tput_self {α : Type} (d : α) (t : Tbl α) (k : Nat) (v : α) : tget d (tput t k v) k = v := by
  simp [tget]

theorem tget_tput_ne {α : Type} (d : α) (t : Tbl α) {k j : Nat} (v : α) (h : j ≠ k) :
    tget d (tput t k v) j = tget d t j := by simp [tget, tfind_tput_ne t v h]

theorem tget_tput {α : Type} (d : α) (t : Tbl α) (k j : Nat) (v : α) :
    tget d (tput t k v) j = if j = k then v else tget d t j := by
  split
  · subst j; simp
  · exact tget_tput_ne d t v ‹_›

/-- The later of two writes of one key stays. -/
@[simp] theorem tput_tput_self {α : Type} (t : Tbl α) (k : Nat) (v w : α) : tput (tput t k v) k w = tput t k w := by
  induction t with
  | nil => simp [tput]
  | cons x t ih =>
    obtain ⟨k', v'⟩ := x
    simp only [tput]
    split
    · simp [tput]
    · split
      · simp [tput]
      · simp [tput, *]

theorem tfind_terase {α : Type} (t : Tbl α) (k j : Nat) : tfind (terase t k) j = if j = k then none else tfind t j := by
  induction t with
  | nil => simp [terase, tfind]
  | cons x t ih =>
    obtain ⟨k', v'⟩ := x
    simp only [terase] at ih
    by_cases h : k' = k
    · subst k'
      simp only [terase, List.filter_cons, bne_self_eq_false, Bool.false_eq_true, if_false, tfind, ih]
      by_cases hj : j = k <;> simp [hj]
    · simp only [terase, List.filter_cons, tfind]
      by_cases hj : j = k'
      · subst j; simp [h, tfind]
      · simp [h, hj, tfind, ih]

theorem tget_tset {α : Type} [DecidableEq α] (d : α) (t : Tbl α) (k j : Nat) (v : α) :
    tget d (tset d t k v) j = if j = k then v else tget d t j := by
  unfold tset
  split
  · subst v; simp only [tget, tfind_terase]; split <;> simp
  · exact tget_tput d t k j v

@[simp] theorem tget_tset_self {α : Type} [DecidableEq α] (d : α) (t : Tbl α) (k : Nat) (v : α) :
    tget d (tset d t k v) k = v := by simp [tget_tset]

theorem tget_tset_ne {α : Type} [DecidableEq α] (d : α) (t : Tbl α) {k j : Nat} (v : α) (h : j ≠ k) :
    tget d (tset d t k v) j = tget d t j := by simp [tget_tset, h]

/-- A key that is found is listed. -/
theorem tfind_mem {α : Type} {t : Tbl α} {k : Nat} {v : α} (h : tfind t k = some v) : (k, v) ∈ t := by
  induction t with
  | nil => simp at h
  | cons x t ih =>
    obtain ⟨k', v'⟩ := x
    simp only [tfind] at h
    split at h
    · simp_all
    · exact List.mem_cons_of_mem _ (ih h)

/-- A key below every listed key is not found. -/
theorem tfind_none_of_lt {α : Type} {t : Tbl α} {k : Nat} (h : ∀ p ∈ t, k < p.1) : tfind t k = none := by
  induction t with
  | nil => rfl
  | cons x t ih =>
    have := h x (by simp)
    simp only [tfind]
    rw [if_neg (by omega), ih fun p hp => h p (by simp [hp])]

/-- In a rising table a listed value is what its key reads. -/
theorem tfind_of_mem {α : Type} {t : Tbl α} (hr : t.Pairwise fun a b => a.1 < b.1) {k : Nat} {v : α} (h : (k, v) ∈ t) :
    tfind t k = some v := by
  induction t with
  | nil => simp at h
  | cons x t ih =>
    obtain ⟨k', v'⟩ := x
    rw [List.pairwise_cons] at hr
    simp only [List.mem_cons, Prod.mk.injEq] at h
    obtain ⟨rfl, rfl⟩ | h := h
    · simp [tfind]
    · have := hr.1 _ h
      simp only [tfind]
      rw [if_neg (by simp only at this; omega), ih hr.2 h]

/-! ### The canonical form is kept -/

theorem mem_tput {α : Type} {t : Tbl α} {k : Nat} {v : α} {p : Nat × α} (h : p ∈ tput t k v) : p = (k, v) ∨ p ∈ t := by
  induction t with
  | nil => simpa [tput] using h
  | cons x t ih =>
    obtain ⟨k', v'⟩ := x
    simp only [tput] at h
    split at h
    · simp only [List.mem_cons] at h ⊢; tauto
    · split at h
      · simp only [List.mem_cons] at h ⊢; tauto
      · simp only [List.mem_cons] at h ⊢
        obtain h | h := h
        · tauto
        · have := ih h; tauto

theorem tput_rising {α : Type} {t : Tbl α} (k : Nat) (v : α) (h : t.Pairwise fun a b => a.1 < b.1) :
    (tput t k v).Pairwise fun a b => a.1 < b.1 := by
  induction t with
  | nil => simp [tput]
  | cons x t ih =>
    obtain ⟨k', v'⟩ := x
    rw [List.pairwise_cons] at h
    simp only [tput]
    split
    · subst k'; exact List.pairwise_cons.2 h
    · split
      · refine List.pairwise_cons.2 ⟨?_, List.pairwise_cons.2 h⟩
        intro p hp
        simp only [List.mem_cons] at hp
        obtain rfl | hp := hp
        · assumption
        · have := h.1 p hp; simp only at *; omega
      · refine List.pairwise_cons.2 ⟨?_, ih h.2⟩
        intro p hp
        obtain rfl | hp := mem_tput hp
        · simp only; omega
        · exact h.1 p hp

theorem terase_wf {α : Type} [DecidableEq α] {d : α} {t : Tbl α} (k : Nat) (h : TableWf d t) : TableWf d (terase t k) :=
  ⟨h.1.filter _, fun p hp => h.2 p (List.mem_of_mem_filter hp)⟩

theorem tset_wf {α : Type} [DecidableEq α] {d : α} {t : Tbl α} (k : Nat) (v : α) (h : TableWf d t) : TableWf d (tset d t k v) := by
  unfold tset
  split
  · exact terase_wf k h
  · refine ⟨tput_rising k v h.1, fun p hp => ?_⟩
    obtain rfl | hp := mem_tput hp
    · assumption
    · exact h.2 p hp

theorem tbelow_wf {α : Type} [DecidableEq α] {d : α} {t : Tbl α} (n : Nat) (h : TableWf d t) : TableWf d (tbelow t n) :=
  ⟨h.1.filter _, fun p hp => h.2 p (List.mem_of_mem_filter hp)⟩

theorem nil_wf {α : Type} [DecidableEq α] (d : α) : TableWf d ([] : Tbl α) :=
  ⟨List.Pairwise.nil, fun _ h => absurd h (List.not_mem_nil)⟩

/-- Both lists rise from a key on: what merging keeps. -/
theorem mem_tmerge {α : Type} [DecidableEq α] {d : α} {ns old : Tbl α} {p : Nat × α} (h : p ∈ tmerge d ns old) :
    p ∈ ns ∧ p.2 ≠ d ∨ p ∈ old := by
  induction ns generalizing old with
  | nil => exact .inr (by simpa [tmerge] using h)
  | cons x ns ih =>
    obtain ⟨k, v⟩ := x
    simp only [tmerge] at h
    have hc : ∀ l, p ∈ tcons d k v (tmerge d ns l) → p ∈ (k, v) :: ns ∧ p.2 ≠ d ∨ p ∈ l := by
      intro l hl
      simp only [tcons] at hl
      split at hl
      · obtain h | h := ih hl
        · exact .inl ⟨by simp [h.1], h.2⟩
        · exact .inr h
      · simp only [List.mem_cons] at hl
        obtain rfl | hl := hl
        · exact .inl ⟨by simp, by assumption⟩
        · obtain h | h := ih hl
          · exact .inl ⟨by simp [h.1], h.2⟩
          · exact .inr h
    induction old with
    | nil => simpa [tinsertThen] using hc [] h
    | cons y t iht =>
      obtain ⟨k', v'⟩ := y
      simp only [tinsertThen] at h
      split at h
      · simp only [List.mem_cons] at h
        obtain rfl | h := h
        · exact .inr (by simp)
        · obtain h | h := iht h
          · exact .inl h
          · exact .inr (by simp [h])
      · split at h
        · obtain h | h := hc _ h
          · exact .inl h
          · exact .inr (by simp [h])
        · exact hc _ h

theorem tmerge_wf {α : Type} [DecidableEq α] {d : α} {ns old : Tbl α} (hn : ns.Pairwise fun a b => a.1 < b.1)
    (h : TableWf d old) : TableWf d (tmerge d ns old) := by
  refine ⟨?_, fun p hp => (mem_tmerge hp).elim (fun x => x.2) (h.2 p)⟩
  have hr := h.1
  clear h
  induction ns generalizing old with
  | nil => simpa [tmerge] using hr
  | cons x ns ih =>
    obtain ⟨k, v⟩ := x
    rw [List.pairwise_cons] at hn
    simp only [tmerge]
    have hc : ∀ l : Tbl α, l.Pairwise (fun a b => a.1 < b.1) → (∀ p ∈ l, k < p.1) →
        (tcons d k v (tmerge d ns l)).Pairwise fun a b => a.1 < b.1 := by
      intro l hl hk
      simp only [tcons]
      split
      · exact ih hn.2 hl
      · refine List.pairwise_cons.2 ⟨fun p hp => ?_, ih hn.2 hl⟩
        obtain h | h := mem_tmerge hp
        · exact hn.1 p h.1
        · exact hk p h
    induction old with
    | nil => simpa [tinsertThen] using hc [] (by simp) (by simp)
    | cons y t iht =>
      obtain ⟨k', v'⟩ := y
      have hr' := List.pairwise_cons.1 hr
      simp only [tinsertThen]
      split
      · refine List.pairwise_cons.2 ⟨fun p hp => ?_, iht hr'.2⟩
        have : p ∈ (k, v) :: ns ∧ p.2 ≠ d ∨ p ∈ t := mem_tmerge (d := d) (ns := (k, v) :: ns) (by simpa [tmerge] using hp)
        obtain ⟨hm, -⟩ | hm := this
        · simp only [List.mem_cons] at hm
          obtain rfl | hm := hm
          · assumption
          · have := hn.1 p hm; simp only at this ⊢; omega
        · exact hr'.1 p hm
      · split
        · subst k'; exact hc _ hr'.2 hr'.1
        · refine hc _ hr fun p hp => ?_
          simp only [List.mem_cons] at hp
          obtain rfl | hp := hp
          · simp only; omega
          · have := hr'.1 p hp; simp only at *; omega

/-- What a merge reads as: the new entry where there is one, else the old. -/
theorem tget_tmerge {α : Type} [DecidableEq α] {d : α} {ns old : Tbl α} (hn : ns.Pairwise fun a b => a.1 < b.1)
    (h : TableWf d old) (j : Nat) :
    tget d (tmerge d ns old) j = (tfind ns j).getD (tget d old j) := by
  induction ns generalizing old with
  | nil => simp [tmerge]
  | cons x ns ih =>
    obtain ⟨k, v⟩ := x
    have hn' := List.pairwise_cons.1 hn
    simp only [tmerge]
    have hnone : j ≤ k → tfind ns j = none := fun hj =>
      tfind_none_of_lt fun p hp => by have := hn'.1 p hp; simp only at this; omega
    have hc : ∀ l : Tbl α, TableWf d l → (∀ p ∈ l, k < p.1) →
        tget d (tcons d k v (tmerge d ns l)) j = (tfind ((k, v) :: ns) j).getD (tget d l j) := by
      intro l hl hk
      have hi := ih hn'.2 hl
      simp only [tcons, tfind]
      split
      · by_cases hj : j = k
        · subst j
          rw [hi, hnone (Nat.le_refl _)]
          subst v
          simp [tget, tfind_none_of_lt hk]
        · rw [if_neg hj, hi]
      · by_cases hj : j = k
        · subst j; simp [tget, tfind]
        · rw [if_neg hj, ← hi]; simp [tget, tfind, hj]
    induction old with
    | nil => simpa [tinsertThen] using hc [] (nil_wf d) (by simp)
    | cons y t iht =>
      obtain ⟨k', v'⟩ := y
      have hp' := List.pairwise_cons.1 h.1
      have ht : TableWf d t := ⟨hp'.2, fun p hp => h.2 p (by simp [hp])⟩
      simp only [tinsertThen]
      split
      · have hi := iht ht
        by_cases hj : j = k'
        · subst j
          have : tfind ((k, v) :: ns) k' = none := tfind_none_of_lt fun p hp => by
            simp only [List.mem_cons] at hp
            obtain rfl | hp := hp
            · assumption
            · have := hn'.1 p hp; simp only at *; omega
          rw [this]
          simp [tget, tfind]
        · have e : ∀ l : Tbl α, tget d ((k', v') :: l) j = tget d l j := fun l => by simp [tget, tfind, hj]
          rw [e, e, hi]
      · split
        · subst k'
          rw [hc t ht hp'.1]
          by_cases hj : j = k
          · subst j; simp [tfind]
          · simp only [tfind, if_neg hj, tget]
        · rw [hc _ h]
          intro p hp
          simp only [List.mem_cons] at hp
          obtain rfl | hp := hp
          · simp only; omega
          · have := hp'.1 p hp; simp only at *; omega

/-! ### Runs of bytes -/

theorem mem_numbered {α : Type} {a : Nat} {l : List α} {p : Nat × α} (h : p ∈ numbered a l) : a ≤ p.1 ∧ p.1 < a + l.length := by
  induction l generalizing a with
  | nil => simp [numbered] at h
  | cons v vs ih =>
    simp only [numbered, List.mem_cons] at h
    obtain rfl | h := h
    · simp
    · have := ih h; simp only [List.length_cons]; omega

theorem numbered_rising {α : Type} (a : Nat) (l : List α) : (numbered a l).Pairwise fun x y => x.1 < y.1 := by
  induction l generalizing a with
  | nil => simp [numbered]
  | cons v vs ih =>
    refine List.pairwise_cons.2 ⟨fun p hp => ?_, ih _⟩
    have := mem_numbered hp; simp only; omega

theorem tfind_numbered {α : Type} (a : Nat) (l : List α) (j : Nat) :
    tfind (numbered a l) j = if a ≤ j then l[j - a]? else none := by
  induction l generalizing a with
  | nil => simp [numbered]
  | cons v vs ih =>
    simp only [numbered, tfind, ih]
    by_cases h : j = a
    · subst j; simp
    · rw [if_neg h]
      by_cases h2 : a ≤ j
      · rw [if_pos (by omega), if_pos h2, show j - a = (j - (a + 1)) + 1 by omega, List.getElem?_cons_succ]
      · rw [if_neg (by omega), if_neg h2]

@[simp] theorem leBytes_length (n v : Nat) : (leBytes n v).length = n := by
  induction n generalizing v with
  | zero => rfl
  | succ n ih => simp [leBytes, ih]

/-- Little-endian bytes give their number back (R177). -/
theorem leNat_leBytes (n v : Nat) : leNat (leBytes n v) = v % 256 ^ n := by
  induction n generalizing v with
  | zero => simp [leBytes, leNat, Nat.mod_one]
  | succ n ih =>
    simp only [leBytes, leNat, ih, BitVec.toNat_ofNat]
    have h : 256 ^ (n + 1) = 256 * 256 ^ n := by rw [Nat.pow_succ, Nat.mul_comm]
    rw [h, Nat.mod_mul]

@[simp] theorem trun_length {α : Type} (d : α) (t : Tbl α) (a n : Nat) : (trun d t a n).length = n := by
  induction n generalizing a with
  | zero => rfl
  | succ n ih => simp [trun, ih]

end Sys2Proof.Machine
end

