-- ==== Sys2Proof/Laws/State.lean ====
section
/-! SUPPORT. What each update of the state leaves of each field: one lemma a field and update, by rfl. -/

namespace Sys2Proof.Machine

/-! ### setCore -/

@[simp] theorem setCore_turn (s : State) (k : Nat) (c : Core) : (s.setCore k c).turn = s.turn := rfl
@[simp] theorem setCore_agenda (s : State) (k : Nat) (c : Core) : (s.setCore k c).agenda = s.agenda := rfl
@[simp] theorem setCore_order (s : State) (k : Nat) (c : Core) : (s.setCore k c).order = s.order := rfl
@[simp] theorem setCore_nominal (s : State) (k : Nat) (c : Core) : (s.setCore k c).nominal = s.nominal := rfl
@[simp] theorem setCore_draws (s : State) (k : Nat) (c : Core) : (s.setCore k c).draws = s.draws := rfl
@[simp] theorem setCore_shafts (s : State) (k : Nat) (c : Core) : (s.setCore k c).shafts = s.shafts := rfl
@[simp] theorem setCore_clusters (s : State) (k : Nat) (c : Core) : (s.setCore k c).clusters = s.clusters := rfl
@[simp] theorem setCore_hbm (s : State) (k : Nat) (c : Core) : (s.setCore k c).hbm = s.hbm := rfl
@[simp] theorem setCore_hbmKey (s : State) (k : Nat) (c : Core) : (s.setCore k c).hbmKey = s.hbmKey := rfl
@[simp] theorem setCore_poison (s : State) (k : Nat) (c : Core) : (s.setCore k c).poison = s.poison := rfl
@[simp] theorem setCore_host (s : State) (k : Nat) (c : Core) : (s.setCore k c).host = s.host := rfl
@[simp] theorem setCore_hostBad (s : State) (k : Nat) (c : Core) : (s.setCore k c).hostBad = s.hostBad := rfl
@[simp] theorem setCore_records (s : State) (k : Nat) (c : Core) : (s.setCore k c).records = s.records := rfl
@[simp] theorem setCore_dispen (s : State) (k : Nat) (c : Core) : (s.setCore k c).dispen = s.dispen := rfl
@[simp] theorem setCore_recsel (s : State) (k : Nat) (c : Core) : (s.setCore k c).recsel = s.recsel := rfl
@[simp] theorem setCore_reccmdErr (s : State) (k : Nat) (c : Core) : (s.setCore k c).reccmdErr = s.reccmdErr := rfl
@[simp] theorem setCore_fqBase (s : State) (k : Nat) (c : Core) : (s.setCore k c).fqBase = s.fqBase := rfl
@[simp] theorem setCore_fqLog (s : State) (k : Nat) (c : Core) : (s.setCore k c).fqLog = s.fqLog := rfl
@[simp] theorem setCore_fqInten (s : State) (k : Nat) (c : Core) : (s.setCore k c).fqInten = s.fqInten := rfl
@[simp] theorem setCore_fqHead (s : State) (k : Nat) (c : Core) : (s.setCore k c).fqHead = s.fqHead := rfl
@[simp] theorem setCore_fqTail (s : State) (k : Nat) (c : Core) : (s.setCore k c).fqTail = s.fqTail := rfl
@[simp] theorem setCore_reports (s : State) (k : Nat) (c : Core) : (s.setCore k c).reports = s.reports := rfl
@[simp] theorem setCore_msix (s : State) (k : Nat) (c : Core) : (s.setCore k c).msix = s.msix := rfl
@[simp] theorem setCore_completions (s : State) (k : Nat) (c : Core) : (s.setCore k c).completions = s.completions := rfl
@[simp] theorem setCore_dphasers (s : State) (k : Nat) (c : Core) : (s.setCore k c).dphasers = s.dphasers := rfl
@[simp] theorem setCore_pcbs (s : State) (k : Nat) (c : Core) : (s.setCore k c).pcbs = s.pcbs := rfl
@[simp] theorem setCore_saves (s : State) (k : Nat) (c : Core) : (s.setCore k c).saves = s.saves := rfl
@[simp] theorem setCore_keys (s : State) (k : Nat) (c : Core) : (s.setCore k c).keys = s.keys := rfl
@[simp] theorem setCore_resetDue (s : State) (k : Nat) (c : Core) : (s.setCore k c).resetDue = s.resetDue := rfl
@[simp] theorem setCore_romDigest (s : State) (k : Nat) (c : Core) : (s.setCore k c).romDigest = s.romDigest := rfl
@[simp] theorem setCore_fwDigest (s : State) (k : Nat) (c : Core) : (s.setCore k c).fwDigest = s.fwDigest := rfl
@[simp] theorem setCore_idDigest (s : State) (k : Nat) (c : Core) : (s.setCore k c).idDigest = s.idDigest := rfl
@[simp] theorem setCore_measured (s : State) (k : Nat) (c : Core) : (s.setCore k c).measured = s.measured := rfl
@[simp] theorem setCore_invPart (s : State) (k : Nat) (c : Core) : (s.setCore k c).invPart = s.invPart := rfl
@[simp] theorem setCore_invAll (s : State) (k : Nat) (c : Core) : (s.setCore k c).invAll = s.invAll := rfl
@[simp] theorem setCore_invSize (s : State) (k : Nat) (c : Core) : (s.setCore k c).invSize = s.invSize := rfl
@[simp] theorem setCore_invBusy (s : State) (k : Nat) (c : Core) : (s.setCore k c).invBusy = s.invBusy := rfl
@[simp] theorem setCore_invAt (s : State) (k : Nat) (c : Core) : (s.setCore k c).invAt = s.invAt := rfl
@[simp] theorem setCore_invVa (s : State) (k : Nat) (c : Core) : (s.setCore k c).invVa = s.invVa := rfl
@[simp] theorem setCore_windows (s : State) (k : Nat) (c : Core) : (s.setCore k c).windows = s.windows := rfl
@[simp] theorem setCore_logCount (s : State) (k : Nat) (c : Core) : (s.setCore k c).logCount = s.logCount := rfl
@[simp] theorem setCore_log (s : State) (k : Nat) (c : Core) : (s.setCore k c).log = s.log := rfl
@[simp] theorem setCore_psust (s : State) (k : Nat) (c : Core) : (s.setCore k c).psust = s.psust := rfl
@[simp] theorem setCore_psprint (s : State) (k : Nat) (c : Core) : (s.setCore k c).psprint = s.psprint := rfl
@[simp] theorem setCore_spen (s : State) (k : Nat) (c : Core) : (s.setCore k c).spen = s.spen := rfl
@[simp] theorem setCore_pavg (s : State) (k : Nat) (c : Core) : (s.setCore k c).pavg = s.pavg := rfl
@[simp] theorem setCore_lrErr (s : State) (k : Nat) (c : Core) : (s.setCore k c).lrErr = s.lrErr := rfl
@[simp] theorem setCore_energy (s : State) (k : Nat) (c : Core) : (s.setCore k c).energy = s.energy := rfl
@[simp] theorem setCore_ports (s : State) (k : Nat) (c : Core) : (s.setCore k c).ports = s.ports := rfl
@[simp] theorem setCore_routes (s : State) (k : Nat) (c : Core) : (s.setCore k c).routes = s.routes := rfl
@[simp] theorem setCore_devnum (s : State) (k : Nat) (c : Core) : (s.setCore k c).devnum = s.devnum := rfl
@[simp] theorem setCore_devnumSet (s : State) (k : Nat) (c : Core) : (s.setCore k c).devnumSet = s.devnumSet := rfl
@[simp] theorem setCore_fwstat (s : State) (k : Nat) (c : Core) : (s.setCore k c).fwstat = s.fwstat := rfl
@[simp] theorem setCore_fwReady (s : State) (k : Nat) (c : Core) : (s.setCore k c).fwReady = s.fwReady := rfl
@[simp] theorem setCore_fwContent (s : State) (k : Nat) (c : Core) : (s.setCore k c).fwContent = s.fwContent := rfl
@[simp] theorem setCore_fwVersion (s : State) (k : Nat) (c : Core) : (s.setCore k c).fwVersion = s.fwVersion := rfl
@[simp] theorem setCore_stage (s : State) (k : Nat) (c : Core) : (s.setCore k c).stage = s.stage := rfl
@[simp] theorem setCore_calcl (s : State) (k : Nat) (c : Core) : (s.setCore k c).calcl = s.calcl := rfl
@[simp] theorem setCore_cut (s : State) (k : Nat) (c : Core) : (s.setCore k c).cut = s.cut := rfl
@[simp] theorem setCore_advise (s : State) (k : Nat) (c : Core) : (s.setCore k c).advise = s.advise := rfl
@[simp] theorem setCore_nret (s : State) (k : Nat) (c : Core) : (s.setCore k c).nret = s.nret := rfl
@[simp] theorem setCore_sessions (s : State) (k : Nat) (c : Core) : (s.setCore k c).sessions = s.sessions := rfl
@[simp] theorem setCore_nextSession (s : State) (k : Nat) (c : Core) : (s.setCore k c).nextSession = s.nextSession := rfl
@[simp] theorem setCore_spdm (s : State) (k : Nat) (c : Core) : (s.setCore k c).spdm = s.spdm := rfl
@[simp] theorem setCore_reply (s : State) (k : Nat) (c : Core) : (s.setCore k c).reply = s.reply := rfl
@[simp] theorem setCore_sent (s : State) (k : Nat) (c : Core) : (s.setCore k c).sent = s.sent := rfl
@[simp] theorem setCore_inbound (s : State) (k : Nat) (c : Core) : (s.setCore k c).inbound = s.inbound := rfl

/-! ### setShaft -/

@[simp] theorem setShaft_turn (s : State) (n : Nat) (h : Shaft) : (s.setShaft n h).turn = s.turn := rfl
@[simp] theorem setShaft_agenda (s : State) (n : Nat) (h : Shaft) : (s.setShaft n h).agenda = s.agenda := rfl
@[simp] theorem setShaft_order (s : State) (n : Nat) (h : Shaft) : (s.setShaft n h).order = s.order := rfl
@[simp] theorem setShaft_nominal (s : State) (n : Nat) (h : Shaft) : (s.setShaft n h).nominal = s.nominal := rfl
@[simp] theorem setShaft_draws (s : State) (n : Nat) (h : Shaft) : (s.setShaft n h).draws = s.draws := rfl
@[simp] theorem setShaft_cores (s : State) (n : Nat) (h : Shaft) : (s.setShaft n h).cores = s.cores := rfl
@[simp] theorem setShaft_clusters (s : State) (n : Nat) (h : Shaft) : (s.setShaft n h).clusters = s.clusters := rfl
@[simp] theorem setShaft_hbm (s : State) (n : Nat) (h : Shaft) : (s.setShaft n h).hbm = s.hbm := rfl
@[simp] theorem setShaft_hbmKey (s : State) (n : Nat) (h : Shaft) : (s.setShaft n h).hbmKey = s.hbmKey := rfl
@[simp] theorem setShaft_poison (s : State) (n : Nat) (h : Shaft) : (s.setShaft n h).poison = s.poison := rfl
@[simp] theorem setShaft_host (s : State) (n : Nat) (h : Shaft) : (s.setShaft n h).host = s.host := rfl
@[simp] theorem setShaft_hostBad (s : State) (n : Nat) (h : Shaft) : (s.setShaft n h).hostBad = s.hostBad := rfl
@[simp] theorem setShaft_records (s : State) (n : Nat) (h : Shaft) : (s.setShaft n h).records = s.records := rfl
@[simp] theorem setShaft_dispen (s : State) (n : Nat) (h : Shaft) : (s.setShaft n h).dispen = s.dispen := rfl
@[simp] theorem setShaft_recsel (s : State) (n : Nat) (h : Shaft) : (s.setShaft n h).recsel = s.recsel := rfl
@[simp] theorem setShaft_reccmdErr (s : State) (n : Nat) (h : Shaft) : (s.setShaft n h).reccmdErr = s.reccmdErr := rfl
@[simp] theorem setShaft_fqBase (s : State) (n : Nat) (h : Shaft) : (s.setShaft n h).fqBase = s.fqBase := rfl
@[simp] theorem setShaft_fqLog (s : State) (n : Nat) (h : Shaft) : (s.setShaft n h).fqLog = s.fqLog := rfl
@[simp] theorem setShaft_fqInten (s : State) (n : Nat) (h : Shaft) : (s.setShaft n h).fqInten = s.fqInten := rfl
@[simp] theorem setShaft_fqHead (s : State) (n : Nat) (h : Shaft) : (s.setShaft n h).fqHead = s.fqHead := rfl
@[simp] theorem setShaft_fqTail (s : State) (n : Nat) (h : Shaft) : (s.setShaft n h).fqTail = s.fqTail := rfl
@[simp] theorem setShaft_reports (s : State) (n : Nat) (h : Shaft) : (s.setShaft n h).reports = s.reports := rfl
@[simp] theorem setShaft_msix (s : State) (n : Nat) (h : Shaft) : (s.setShaft n h).msix = s.msix := rfl
@[simp] theorem setShaft_completions (s : State) (n : Nat) (h : Shaft) : (s.setShaft n h).completions = s.completions := rfl
@[simp] theorem setShaft_dphasers (s : State) (n : Nat) (h : Shaft) : (s.setShaft n h).dphasers = s.dphasers := rfl
@[simp] theorem setShaft_pcbs (s : State) (n : Nat) (h : Shaft) : (s.setShaft n h).pcbs = s.pcbs := rfl
@[simp] theorem setShaft_saves (s : State) (n : Nat) (h : Shaft) : (s.setShaft n h).saves = s.saves := rfl
@[simp] theorem setShaft_keys (s : State) (n : Nat) (h : Shaft) : (s.setShaft n h).keys = s.keys := rfl
@[simp] theorem setShaft_resetDue (s : State) (n : Nat) (h : Shaft) : (s.setShaft n h).resetDue = s.resetDue := rfl
@[simp] theorem setShaft_romDigest (s : State) (n : Nat) (h : Shaft) : (s.setShaft n h).romDigest = s.romDigest := rfl
@[simp] theorem setShaft_fwDigest (s : State) (n : Nat) (h : Shaft) : (s.setShaft n h).fwDigest = s.fwDigest := rfl
@[simp] theorem setShaft_idDigest (s : State) (n : Nat) (h : Shaft) : (s.setShaft n h).idDigest = s.idDigest := rfl
@[simp] theorem setShaft_measured (s : State) (n : Nat) (h : Shaft) : (s.setShaft n h).measured = s.measured := rfl
@[simp] theorem setShaft_invPart (s : State) (n : Nat) (h : Shaft) : (s.setShaft n h).invPart = s.invPart := rfl
@[simp] theorem setShaft_invAll (s : State) (n : Nat) (h : Shaft) : (s.setShaft n h).invAll = s.invAll := rfl
@[simp] theorem setShaft_invSize (s : State) (n : Nat) (h : Shaft) : (s.setShaft n h).invSize = s.invSize := rfl
@[simp] theorem setShaft_invBusy (s : State) (n : Nat) (h : Shaft) : (s.setShaft n h).invBusy = s.invBusy := rfl
@[simp] theorem setShaft_invAt (s : State) (n : Nat) (h : Shaft) : (s.setShaft n h).invAt = s.invAt := rfl
@[simp] theorem setShaft_invVa (s : State) (n : Nat) (h : Shaft) : (s.setShaft n h).invVa = s.invVa := rfl
@[simp] theorem setShaft_windows (s : State) (n : Nat) (h : Shaft) : (s.setShaft n h).windows = s.windows := rfl
@[simp] theorem setShaft_logCount (s : State) (n : Nat) (h : Shaft) : (s.setShaft n h).logCount = s.logCount := rfl
@[simp] theorem setShaft_log (s : State) (n : Nat) (h : Shaft) : (s.setShaft n h).log = s.log := rfl
@[simp] theorem setShaft_psust (s : State) (n : Nat) (h : Shaft) : (s.setShaft n h).psust = s.psust := rfl
@[simp] theorem setShaft_psprint (s : State) (n : Nat) (h : Shaft) : (s.setShaft n h).psprint = s.psprint := rfl
@[simp] theorem setShaft_spen (s : State) (n : Nat) (h : Shaft) : (s.setShaft n h).spen = s.spen := rfl
@[simp] theorem setShaft_pavg (s : State) (n : Nat) (h : Shaft) : (s.setShaft n h).pavg = s.pavg := rfl
@[simp] theorem setShaft_lrErr (s : State) (n : Nat) (h : Shaft) : (s.setShaft n h).lrErr = s.lrErr := rfl
@[simp] theorem setShaft_energy (s : State) (n : Nat) (h : Shaft) : (s.setShaft n h).energy = s.energy := rfl
@[simp] theorem setShaft_ports (s : State) (n : Nat) (h : Shaft) : (s.setShaft n h).ports = s.ports := rfl
@[simp] theorem setShaft_routes (s : State) (n : Nat) (h : Shaft) : (s.setShaft n h).routes = s.routes := rfl
@[simp] theorem setShaft_devnum (s : State) (n : Nat) (h : Shaft) : (s.setShaft n h).devnum = s.devnum := rfl
@[simp] theorem setShaft_devnumSet (s : State) (n : Nat) (h : Shaft) : (s.setShaft n h).devnumSet = s.devnumSet := rfl
@[simp] theorem setShaft_fwstat (s : State) (n : Nat) (h : Shaft) : (s.setShaft n h).fwstat = s.fwstat := rfl
@[simp] theorem setShaft_fwReady (s : State) (n : Nat) (h : Shaft) : (s.setShaft n h).fwReady = s.fwReady := rfl
@[simp] theorem setShaft_fwContent (s : State) (n : Nat) (h : Shaft) : (s.setShaft n h).fwContent = s.fwContent := rfl
@[simp] theorem setShaft_fwVersion (s : State) (n : Nat) (h : Shaft) : (s.setShaft n h).fwVersion = s.fwVersion := rfl
@[simp] theorem setShaft_stage (s : State) (n : Nat) (h : Shaft) : (s.setShaft n h).stage = s.stage := rfl
@[simp] theorem setShaft_calcl (s : State) (n : Nat) (h : Shaft) : (s.setShaft n h).calcl = s.calcl := rfl
@[simp] theorem setShaft_cut (s : State) (n : Nat) (h : Shaft) : (s.setShaft n h).cut = s.cut := rfl
@[simp] theorem setShaft_advise (s : State) (n : Nat) (h : Shaft) : (s.setShaft n h).advise = s.advise := rfl
@[simp] theorem setShaft_nret (s : State) (n : Nat) (h : Shaft) : (s.setShaft n h).nret = s.nret := rfl
@[simp] theorem setShaft_sessions (s : State) (n : Nat) (h : Shaft) : (s.setShaft n h).sessions = s.sessions := rfl
@[simp] theorem setShaft_nextSession (s : State) (n : Nat) (h : Shaft) : (s.setShaft n h).nextSession = s.nextSession := rfl
@[simp] theorem setShaft_spdm (s : State) (n : Nat) (h : Shaft) : (s.setShaft n h).spdm = s.spdm := rfl
@[simp] theorem setShaft_reply (s : State) (n : Nat) (h : Shaft) : (s.setShaft n h).reply = s.reply := rfl
@[simp] theorem setShaft_sent (s : State) (n : Nat) (h : Shaft) : (s.setShaft n h).sent = s.sent := rfl
@[simp] theorem setShaft_inbound (s : State) (n : Nat) (h : Shaft) : (s.setShaft n h).inbound = s.inbound := rfl

/-! ### setCluster -/

@[simp] theorem setCluster_turn (s : State) (n : Nat) (c : Cluster) : (s.setCluster n c).turn = s.turn := rfl
@[simp] theorem setCluster_agenda (s : State) (n : Nat) (c : Cluster) : (s.setCluster n c).agenda = s.agenda := rfl
@[simp] theorem setCluster_order (s : State) (n : Nat) (c : Cluster) : (s.setCluster n c).order = s.order := rfl
@[simp] theorem setCluster_nominal (s : State) (n : Nat) (c : Cluster) : (s.setCluster n c).nominal = s.nominal := rfl
@[simp] theorem setCluster_draws (s : State) (n : Nat) (c : Cluster) : (s.setCluster n c).draws = s.draws := rfl
@[simp] theorem setCluster_cores (s : State) (n : Nat) (c : Cluster) : (s.setCluster n c).cores = s.cores := rfl
@[simp] theorem setCluster_shafts (s : State) (n : Nat) (c : Cluster) : (s.setCluster n c).shafts = s.shafts := rfl
@[simp] theorem setCluster_hbm (s : State) (n : Nat) (c : Cluster) : (s.setCluster n c).hbm = s.hbm := rfl
@[simp] theorem setCluster_hbmKey (s : State) (n : Nat) (c : Cluster) : (s.setCluster n c).hbmKey = s.hbmKey := rfl
@[simp] theorem setCluster_poison (s : State) (n : Nat) (c : Cluster) : (s.setCluster n c).poison = s.poison := rfl
@[simp] theorem setCluster_host (s : State) (n : Nat) (c : Cluster) : (s.setCluster n c).host = s.host := rfl
@[simp] theorem setCluster_hostBad (s : State) (n : Nat) (c : Cluster) : (s.setCluster n c).hostBad = s.hostBad := rfl
@[simp] theorem setCluster_records (s : State) (n : Nat) (c : Cluster) : (s.setCluster n c).records = s.records := rfl
@[simp] theorem setCluster_dispen (s : State) (n : Nat) (c : Cluster) : (s.setCluster n c).dispen = s.dispen := rfl
@[simp] theorem setCluster_recsel (s : State) (n : Nat) (c : Cluster) : (s.setCluster n c).recsel = s.recsel := rfl
@[simp] theorem setCluster_reccmdErr (s : State) (n : Nat) (c : Cluster) : (s.setCluster n c).reccmdErr = s.reccmdErr := rfl
@[simp] theorem setCluster_fqBase (s : State) (n : Nat) (c : Cluster) : (s.setCluster n c).fqBase = s.fqBase := rfl
@[simp] theorem setCluster_fqLog (s : State) (n : Nat) (c : Cluster) : (s.setCluster n c).fqLog = s.fqLog := rfl
@[simp] theorem setCluster_fqInten (s : State) (n : Nat) (c : Cluster) : (s.setCluster n c).fqInten = s.fqInten := rfl
@[simp] theorem setCluster_fqHead (s : State) (n : Nat) (c : Cluster) : (s.setCluster n c).fqHead = s.fqHead := rfl
@[simp] theorem setCluster_fqTail (s : State) (n : Nat) (c : Cluster) : (s.setCluster n c).fqTail = s.fqTail := rfl
@[simp] theorem setCluster_reports (s : State) (n : Nat) (c : Cluster) : (s.setCluster n c).reports = s.reports := rfl
@[simp] theorem setCluster_msix (s : State) (n : Nat) (c : Cluster) : (s.setCluster n c).msix = s.msix := rfl
@[simp] theorem setCluster_completions (s : State) (n : Nat) (c : Cluster) : (s.setCluster n c).completions = s.completions := rfl
@[simp] theorem setCluster_dphasers (s : State) (n : Nat) (c : Cluster) : (s.setCluster n c).dphasers = s.dphasers := rfl
@[simp] theorem setCluster_pcbs (s : State) (n : Nat) (c : Cluster) : (s.setCluster n c).pcbs = s.pcbs := rfl
@[simp] theorem setCluster_saves (s : State) (n : Nat) (c : Cluster) : (s.setCluster n c).saves = s.saves := rfl
@[simp] theorem setCluster_keys (s : State) (n : Nat) (c : Cluster) : (s.setCluster n c).keys = s.keys := rfl
@[simp] theorem setCluster_resetDue (s : State) (n : Nat) (c : Cluster) : (s.setCluster n c).resetDue = s.resetDue := rfl
@[simp] theorem setCluster_romDigest (s : State) (n : Nat) (c : Cluster) : (s.setCluster n c).romDigest = s.romDigest := rfl
@[simp] theorem setCluster_fwDigest (s : State) (n : Nat) (c : Cluster) : (s.setCluster n c).fwDigest = s.fwDigest := rfl
@[simp] theorem setCluster_idDigest (s : State) (n : Nat) (c : Cluster) : (s.setCluster n c).idDigest = s.idDigest := rfl
@[simp] theorem setCluster_measured (s : State) (n : Nat) (c : Cluster) : (s.setCluster n c).measured = s.measured := rfl
@[simp] theorem setCluster_invPart (s : State) (n : Nat) (c : Cluster) : (s.setCluster n c).invPart = s.invPart := rfl
@[simp] theorem setCluster_invAll (s : State) (n : Nat) (c : Cluster) : (s.setCluster n c).invAll = s.invAll := rfl
@[simp] theorem setCluster_invSize (s : State) (n : Nat) (c : Cluster) : (s.setCluster n c).invSize = s.invSize := rfl
@[simp] theorem setCluster_invBusy (s : State) (n : Nat) (c : Cluster) : (s.setCluster n c).invBusy = s.invBusy := rfl
@[simp] theorem setCluster_invAt (s : State) (n : Nat) (c : Cluster) : (s.setCluster n c).invAt = s.invAt := rfl
@[simp] theorem setCluster_invVa (s : State) (n : Nat) (c : Cluster) : (s.setCluster n c).invVa = s.invVa := rfl
@[simp] theorem setCluster_windows (s : State) (n : Nat) (c : Cluster) : (s.setCluster n c).windows = s.windows := rfl
@[simp] theorem setCluster_logCount (s : State) (n : Nat) (c : Cluster) : (s.setCluster n c).logCount = s.logCount := rfl
@[simp] theorem setCluster_log (s : State) (n : Nat) (c : Cluster) : (s.setCluster n c).log = s.log := rfl
@[simp] theorem setCluster_psust (s : State) (n : Nat) (c : Cluster) : (s.setCluster n c).psust = s.psust := rfl
@[simp] theorem setCluster_psprint (s : State) (n : Nat) (c : Cluster) : (s.setCluster n c).psprint = s.psprint := rfl
@[simp] theorem setCluster_spen (s : State) (n : Nat) (c : Cluster) : (s.setCluster n c).spen = s.spen := rfl
@[simp] theorem setCluster_pavg (s : State) (n : Nat) (c : Cluster) : (s.setCluster n c).pavg = s.pavg := rfl
@[simp] theorem setCluster_lrErr (s : State) (n : Nat) (c : Cluster) : (s.setCluster n c).lrErr = s.lrErr := rfl
@[simp] theorem setCluster_energy (s : State) (n : Nat) (c : Cluster) : (s.setCluster n c).energy = s.energy := rfl
@[simp] theorem setCluster_ports (s : State) (n : Nat) (c : Cluster) : (s.setCluster n c).ports = s.ports := rfl
@[simp] theorem setCluster_routes (s : State) (n : Nat) (c : Cluster) : (s.setCluster n c).routes = s.routes := rfl
@[simp] theorem setCluster_devnum (s : State) (n : Nat) (c : Cluster) : (s.setCluster n c).devnum = s.devnum := rfl
@[simp] theorem setCluster_devnumSet (s : State) (n : Nat) (c : Cluster) : (s.setCluster n c).devnumSet = s.devnumSet := rfl
@[simp] theorem setCluster_fwstat (s : State) (n : Nat) (c : Cluster) : (s.setCluster n c).fwstat = s.fwstat := rfl
@[simp] theorem setCluster_fwReady (s : State) (n : Nat) (c : Cluster) : (s.setCluster n c).fwReady = s.fwReady := rfl
@[simp] theorem setCluster_fwContent (s : State) (n : Nat) (c : Cluster) : (s.setCluster n c).fwContent = s.fwContent := rfl
@[simp] theorem setCluster_fwVersion (s : State) (n : Nat) (c : Cluster) : (s.setCluster n c).fwVersion = s.fwVersion := rfl
@[simp] theorem setCluster_stage (s : State) (n : Nat) (c : Cluster) : (s.setCluster n c).stage = s.stage := rfl
@[simp] theorem setCluster_calcl (s : State) (n : Nat) (c : Cluster) : (s.setCluster n c).calcl = s.calcl := rfl
@[simp] theorem setCluster_cut (s : State) (n : Nat) (c : Cluster) : (s.setCluster n c).cut = s.cut := rfl
@[simp] theorem setCluster_advise (s : State) (n : Nat) (c : Cluster) : (s.setCluster n c).advise = s.advise := rfl
@[simp] theorem setCluster_nret (s : State) (n : Nat) (c : Cluster) : (s.setCluster n c).nret = s.nret := rfl
@[simp] theorem setCluster_sessions (s : State) (n : Nat) (c : Cluster) : (s.setCluster n c).sessions = s.sessions := rfl
@[simp] theorem setCluster_nextSession (s : State) (n : Nat) (c : Cluster) : (s.setCluster n c).nextSession = s.nextSession := rfl
@[simp] theorem setCluster_spdm (s : State) (n : Nat) (c : Cluster) : (s.setCluster n c).spdm = s.spdm := rfl
@[simp] theorem setCluster_reply (s : State) (n : Nat) (c : Cluster) : (s.setCluster n c).reply = s.reply := rfl
@[simp] theorem setCluster_sent (s : State) (n : Nat) (c : Cluster) : (s.setCluster n c).sent = s.sent := rfl
@[simp] theorem setCluster_inbound (s : State) (n : Nat) (c : Cluster) : (s.setCluster n c).inbound = s.inbound := rfl

/-! ### setRecord -/

@[simp] theorem setRecord_turn (s : State) (n : Nat) (x : Record) : (s.setRecord n x).turn = s.turn := rfl
@[simp] theorem setRecord_agenda (s : State) (n : Nat) (x : Record) : (s.setRecord n x).agenda = s.agenda := rfl
@[simp] theorem setRecord_order (s : State) (n : Nat) (x : Record) : (s.setRecord n x).order = s.order := rfl
@[simp] theorem setRecord_nominal (s : State) (n : Nat) (x : Record) : (s.setRecord n x).nominal = s.nominal := rfl
@[simp] theorem setRecord_draws (s : State) (n : Nat) (x : Record) : (s.setRecord n x).draws = s.draws := rfl
@[simp] theorem setRecord_cores (s : State) (n : Nat) (x : Record) : (s.setRecord n x).cores = s.cores := rfl
@[simp] theorem setRecord_shafts (s : State) (n : Nat) (x : Record) : (s.setRecord n x).shafts = s.shafts := rfl
@[simp] theorem setRecord_clusters (s : State) (n : Nat) (x : Record) : (s.setRecord n x).clusters = s.clusters := rfl
@[simp] theorem setRecord_hbm (s : State) (n : Nat) (x : Record) : (s.setRecord n x).hbm = s.hbm := rfl
@[simp] theorem setRecord_hbmKey (s : State) (n : Nat) (x : Record) : (s.setRecord n x).hbmKey = s.hbmKey := rfl
@[simp] theorem setRecord_poison (s : State) (n : Nat) (x : Record) : (s.setRecord n x).poison = s.poison := rfl
@[simp] theorem setRecord_host (s : State) (n : Nat) (x : Record) : (s.setRecord n x).host = s.host := rfl
@[simp] theorem setRecord_hostBad (s : State) (n : Nat) (x : Record) : (s.setRecord n x).hostBad = s.hostBad := rfl
@[simp] theorem setRecord_dispen (s : State) (n : Nat) (x : Record) : (s.setRecord n x).dispen = s.dispen := rfl
@[simp] theorem setRecord_recsel (s : State) (n : Nat) (x : Record) : (s.setRecord n x).recsel = s.recsel := rfl
@[simp] theorem setRecord_reccmdErr (s : State) (n : Nat) (x : Record) : (s.setRecord n x).reccmdErr = s.reccmdErr := rfl
@[simp] theorem setRecord_fqBase (s : State) (n : Nat) (x : Record) : (s.setRecord n x).fqBase = s.fqBase := rfl
@[simp] theorem setRecord_fqLog (s : State) (n : Nat) (x : Record) : (s.setRecord n x).fqLog = s.fqLog := rfl
@[simp] theorem setRecord_fqInten (s : State) (n : Nat) (x : Record) : (s.setRecord n x).fqInten = s.fqInten := rfl
@[simp] theorem setRecord_fqHead (s : State) (n : Nat) (x : Record) : (s.setRecord n x).fqHead = s.fqHead := rfl
@[simp] theorem setRecord_fqTail (s : State) (n : Nat) (x : Record) : (s.setRecord n x).fqTail = s.fqTail := rfl
@[simp] theorem setRecord_reports (s : State) (n : Nat) (x : Record) : (s.setRecord n x).reports = s.reports := rfl
@[simp] theorem setRecord_msix (s : State) (n : Nat) (x : Record) : (s.setRecord n x).msix = s.msix := rfl
@[simp] theorem setRecord_completions (s : State) (n : Nat) (x : Record) : (s.setRecord n x).completions = s.completions := rfl
@[simp] theorem setRecord_dphasers (s : State) (n : Nat) (x : Record) : (s.setRecord n x).dphasers = s.dphasers := rfl
@[simp] theorem setRecord_pcbs (s : State) (n : Nat) (x : Record) : (s.setRecord n x).pcbs = s.pcbs := rfl
@[simp] theorem setRecord_saves (s : State) (n : Nat) (x : Record) : (s.setRecord n x).saves = s.saves := rfl
@[simp] theorem setRecord_keys (s : State) (n : Nat) (x : Record) : (s.setRecord n x).keys = s.keys := rfl
@[simp] theorem setRecord_resetDue (s : State) (n : Nat) (x : Record) : (s.setRecord n x).resetDue = s.resetDue := rfl
@[simp] theorem setRecord_romDigest (s : State) (n : Nat) (x : Record) : (s.setRecord n x).romDigest = s.romDigest := rfl
@[simp] theorem setRecord_fwDigest (s : State) (n : Nat) (x : Record) : (s.setRecord n x).fwDigest = s.fwDigest := rfl
@[simp] theorem setRecord_idDigest (s : State) (n : Nat) (x : Record) : (s.setRecord n x).idDigest = s.idDigest := rfl
@[simp] theorem setRecord_measured (s : State) (n : Nat) (x : Record) : (s.setRecord n x).measured = s.measured := rfl
@[simp] theorem setRecord_invPart (s : State) (n : Nat) (x : Record) : (s.setRecord n x).invPart = s.invPart := rfl
@[simp] theorem setRecord_invAll (s : State) (n : Nat) (x : Record) : (s.setRecord n x).invAll = s.invAll := rfl
@[simp] theorem setRecord_invSize (s : State) (n : Nat) (x : Record) : (s.setRecord n x).invSize = s.invSize := rfl
@[simp] theorem setRecord_invBusy (s : State) (n : Nat) (x : Record) : (s.setRecord n x).invBusy = s.invBusy := rfl
@[simp] theorem setRecord_invAt (s : State) (n : Nat) (x : Record) : (s.setRecord n x).invAt = s.invAt := rfl
@[simp] theorem setRecord_invVa (s : State) (n : Nat) (x : Record) : (s.setRecord n x).invVa = s.invVa := rfl
@[simp] theorem setRecord_windows (s : State) (n : Nat) (x : Record) : (s.setRecord n x).windows = s.windows := rfl
@[simp] theorem setRecord_logCount (s : State) (n : Nat) (x : Record) : (s.setRecord n x).logCount = s.logCount := rfl
@[simp] theorem setRecord_log (s : State) (n : Nat) (x : Record) : (s.setRecord n x).log = s.log := rfl
@[simp] theorem setRecord_psust (s : State) (n : Nat) (x : Record) : (s.setRecord n x).psust = s.psust := rfl
@[simp] theorem setRecord_psprint (s : State) (n : Nat) (x : Record) : (s.setRecord n x).psprint = s.psprint := rfl
@[simp] theorem setRecord_spen (s : State) (n : Nat) (x : Record) : (s.setRecord n x).spen = s.spen := rfl
@[simp] theorem setRecord_pavg (s : State) (n : Nat) (x : Record) : (s.setRecord n x).pavg = s.pavg := rfl
@[simp] theorem setRecord_lrErr (s : State) (n : Nat) (x : Record) : (s.setRecord n x).lrErr = s.lrErr := rfl
@[simp] theorem setRecord_energy (s : State) (n : Nat) (x : Record) : (s.setRecord n x).energy = s.energy := rfl
@[simp] theorem setRecord_ports (s : State) (n : Nat) (x : Record) : (s.setRecord n x).ports = s.ports := rfl
@[simp] theorem setRecord_routes (s : State) (n : Nat) (x : Record) : (s.setRecord n x).routes = s.routes := rfl
@[simp] theorem setRecord_devnum (s : State) (n : Nat) (x : Record) : (s.setRecord n x).devnum = s.devnum := rfl
@[simp] theorem setRecord_devnumSet (s : State) (n : Nat) (x : Record) : (s.setRecord n x).devnumSet = s.devnumSet := rfl
@[simp] theorem setRecord_fwstat (s : State) (n : Nat) (x : Record) : (s.setRecord n x).fwstat = s.fwstat := rfl
@[simp] theorem setRecord_fwReady (s : State) (n : Nat) (x : Record) : (s.setRecord n x).fwReady = s.fwReady := rfl
@[simp] theorem setRecord_fwContent (s : State) (n : Nat) (x : Record) : (s.setRecord n x).fwContent = s.fwContent := rfl
@[simp] theorem setRecord_fwVersion (s : State) (n : Nat) (x : Record) : (s.setRecord n x).fwVersion = s.fwVersion := rfl
@[simp] theorem setRecord_stage (s : State) (n : Nat) (x : Record) : (s.setRecord n x).stage = s.stage := rfl
@[simp] theorem setRecord_calcl (s : State) (n : Nat) (x : Record) : (s.setRecord n x).calcl = s.calcl := rfl
@[simp] theorem setRecord_cut (s : State) (n : Nat) (x : Record) : (s.setRecord n x).cut = s.cut := rfl
@[simp] theorem setRecord_advise (s : State) (n : Nat) (x : Record) : (s.setRecord n x).advise = s.advise := rfl
@[simp] theorem setRecord_nret (s : State) (n : Nat) (x : Record) : (s.setRecord n x).nret = s.nret := rfl
@[simp] theorem setRecord_sessions (s : State) (n : Nat) (x : Record) : (s.setRecord n x).sessions = s.sessions := rfl
@[simp] theorem setRecord_nextSession (s : State) (n : Nat) (x : Record) : (s.setRecord n x).nextSession = s.nextSession := rfl
@[simp] theorem setRecord_spdm (s : State) (n : Nat) (x : Record) : (s.setRecord n x).spdm = s.spdm := rfl
@[simp] theorem setRecord_reply (s : State) (n : Nat) (x : Record) : (s.setRecord n x).reply = s.reply := rfl
@[simp] theorem setRecord_sent (s : State) (n : Nat) (x : Record) : (s.setRecord n x).sent = s.sent := rfl
@[simp] theorem setRecord_inbound (s : State) (n : Nat) (x : Record) : (s.setRecord n x).inbound = s.inbound := rfl

/-! ### setPcb -/

@[simp] theorem setPcb_turn (s : State) (p : Nat) (b : Pcb) : (s.setPcb p b).turn = s.turn := rfl
@[simp] theorem setPcb_agenda (s : State) (p : Nat) (b : Pcb) : (s.setPcb p b).agenda = s.agenda := rfl
@[simp] theorem setPcb_order (s : State) (p : Nat) (b : Pcb) : (s.setPcb p b).order = s.order := rfl
@[simp] theorem setPcb_nominal (s : State) (p : Nat) (b : Pcb) : (s.setPcb p b).nominal = s.nominal := rfl
@[simp] theorem setPcb_draws (s : State) (p : Nat) (b : Pcb) : (s.setPcb p b).draws = s.draws := rfl
@[simp] theorem setPcb_cores (s : State) (p : Nat) (b : Pcb) : (s.setPcb p b).cores = s.cores := rfl
@[simp] theorem setPcb_shafts (s : State) (p : Nat) (b : Pcb) : (s.setPcb p b).shafts = s.shafts := rfl
@[simp] theorem setPcb_clusters (s : State) (p : Nat) (b : Pcb) : (s.setPcb p b).clusters = s.clusters := rfl
@[simp] theorem setPcb_hbm (s : State) (p : Nat) (b : Pcb) : (s.setPcb p b).hbm = s.hbm := rfl
@[simp] theorem setPcb_hbmKey (s : State) (p : Nat) (b : Pcb) : (s.setPcb p b).hbmKey = s.hbmKey := rfl
@[simp] theorem setPcb_poison (s : State) (p : Nat) (b : Pcb) : (s.setPcb p b).poison = s.poison := rfl
@[simp] theorem setPcb_host (s : State) (p : Nat) (b : Pcb) : (s.setPcb p b).host = s.host := rfl
@[simp] theorem setPcb_hostBad (s : State) (p : Nat) (b : Pcb) : (s.setPcb p b).hostBad = s.hostBad := rfl
@[simp] theorem setPcb_records (s : State) (p : Nat) (b : Pcb) : (s.setPcb p b).records = s.records := rfl
@[simp] theorem setPcb_dispen (s : State) (p : Nat) (b : Pcb) : (s.setPcb p b).dispen = s.dispen := rfl
@[simp] theorem setPcb_recsel (s : State) (p : Nat) (b : Pcb) : (s.setPcb p b).recsel = s.recsel := rfl
@[simp] theorem setPcb_reccmdErr (s : State) (p : Nat) (b : Pcb) : (s.setPcb p b).reccmdErr = s.reccmdErr := rfl
@[simp] theorem setPcb_fqBase (s : State) (p : Nat) (b : Pcb) : (s.setPcb p b).fqBase = s.fqBase := rfl
@[simp] theorem setPcb_fqLog (s : State) (p : Nat) (b : Pcb) : (s.setPcb p b).fqLog = s.fqLog := rfl
@[simp] theorem setPcb_fqInten (s : State) (p : Nat) (b : Pcb) : (s.setPcb p b).fqInten = s.fqInten := rfl
@[simp] theorem setPcb_fqHead (s : State) (p : Nat) (b : Pcb) : (s.setPcb p b).fqHead = s.fqHead := rfl
@[simp] theorem setPcb_fqTail (s : State) (p : Nat) (b : Pcb) : (s.setPcb p b).fqTail = s.fqTail := rfl
@[simp] theorem setPcb_reports (s : State) (p : Nat) (b : Pcb) : (s.setPcb p b).reports = s.reports := rfl
@[simp] theorem setPcb_msix (s : State) (p : Nat) (b : Pcb) : (s.setPcb p b).msix = s.msix := rfl
@[simp] theorem setPcb_completions (s : State) (p : Nat) (b : Pcb) : (s.setPcb p b).completions = s.completions := rfl
@[simp] theorem setPcb_dphasers (s : State) (p : Nat) (b : Pcb) : (s.setPcb p b).dphasers = s.dphasers := rfl
@[simp] theorem setPcb_saves (s : State) (p : Nat) (b : Pcb) : (s.setPcb p b).saves = s.saves := rfl
@[simp] theorem setPcb_keys (s : State) (p : Nat) (b : Pcb) : (s.setPcb p b).keys = s.keys := rfl
@[simp] theorem setPcb_resetDue (s : State) (p : Nat) (b : Pcb) : (s.setPcb p b).resetDue = s.resetDue := rfl
@[simp] theorem setPcb_romDigest (s : State) (p : Nat) (b : Pcb) : (s.setPcb p b).romDigest = s.romDigest := rfl
@[simp] theorem setPcb_fwDigest (s : State) (p : Nat) (b : Pcb) : (s.setPcb p b).fwDigest = s.fwDigest := rfl
@[simp] theorem setPcb_idDigest (s : State) (p : Nat) (b : Pcb) : (s.setPcb p b).idDigest = s.idDigest := rfl
@[simp] theorem setPcb_measured (s : State) (p : Nat) (b : Pcb) : (s.setPcb p b).measured = s.measured := rfl
@[simp] theorem setPcb_invPart (s : State) (p : Nat) (b : Pcb) : (s.setPcb p b).invPart = s.invPart := rfl
@[simp] theorem setPcb_invAll (s : State) (p : Nat) (b : Pcb) : (s.setPcb p b).invAll = s.invAll := rfl
@[simp] theorem setPcb_invSize (s : State) (p : Nat) (b : Pcb) : (s.setPcb p b).invSize = s.invSize := rfl
@[simp] theorem setPcb_invBusy (s : State) (p : Nat) (b : Pcb) : (s.setPcb p b).invBusy = s.invBusy := rfl
@[simp] theorem setPcb_invAt (s : State) (p : Nat) (b : Pcb) : (s.setPcb p b).invAt = s.invAt := rfl
@[simp] theorem setPcb_invVa (s : State) (p : Nat) (b : Pcb) : (s.setPcb p b).invVa = s.invVa := rfl
@[simp] theorem setPcb_windows (s : State) (p : Nat) (b : Pcb) : (s.setPcb p b).windows = s.windows := rfl
@[simp] theorem setPcb_logCount (s : State) (p : Nat) (b : Pcb) : (s.setPcb p b).logCount = s.logCount := rfl
@[simp] theorem setPcb_log (s : State) (p : Nat) (b : Pcb) : (s.setPcb p b).log = s.log := rfl
@[simp] theorem setPcb_psust (s : State) (p : Nat) (b : Pcb) : (s.setPcb p b).psust = s.psust := rfl
@[simp] theorem setPcb_psprint (s : State) (p : Nat) (b : Pcb) : (s.setPcb p b).psprint = s.psprint := rfl
@[simp] theorem setPcb_spen (s : State) (p : Nat) (b : Pcb) : (s.setPcb p b).spen = s.spen := rfl
@[simp] theorem setPcb_pavg (s : State) (p : Nat) (b : Pcb) : (s.setPcb p b).pavg = s.pavg := rfl
@[simp] theorem setPcb_lrErr (s : State) (p : Nat) (b : Pcb) : (s.setPcb p b).lrErr = s.lrErr := rfl
@[simp] theorem setPcb_energy (s : State) (p : Nat) (b : Pcb) : (s.setPcb p b).energy = s.energy := rfl
@[simp] theorem setPcb_ports (s : State) (p : Nat) (b : Pcb) : (s.setPcb p b).ports = s.ports := rfl
@[simp] theorem setPcb_routes (s : State) (p : Nat) (b : Pcb) : (s.setPcb p b).routes = s.routes := rfl
@[simp] theorem setPcb_devnum (s : State) (p : Nat) (b : Pcb) : (s.setPcb p b).devnum = s.devnum := rfl
@[simp] theorem setPcb_devnumSet (s : State) (p : Nat) (b : Pcb) : (s.setPcb p b).devnumSet = s.devnumSet := rfl
@[simp] theorem setPcb_fwstat (s : State) (p : Nat) (b : Pcb) : (s.setPcb p b).fwstat = s.fwstat := rfl
@[simp] theorem setPcb_fwReady (s : State) (p : Nat) (b : Pcb) : (s.setPcb p b).fwReady = s.fwReady := rfl
@[simp] theorem setPcb_fwContent (s : State) (p : Nat) (b : Pcb) : (s.setPcb p b).fwContent = s.fwContent := rfl
@[simp] theorem setPcb_fwVersion (s : State) (p : Nat) (b : Pcb) : (s.setPcb p b).fwVersion = s.fwVersion := rfl
@[simp] theorem setPcb_stage (s : State) (p : Nat) (b : Pcb) : (s.setPcb p b).stage = s.stage := rfl
@[simp] theorem setPcb_calcl (s : State) (p : Nat) (b : Pcb) : (s.setPcb p b).calcl = s.calcl := rfl
@[simp] theorem setPcb_cut (s : State) (p : Nat) (b : Pcb) : (s.setPcb p b).cut = s.cut := rfl
@[simp] theorem setPcb_advise (s : State) (p : Nat) (b : Pcb) : (s.setPcb p b).advise = s.advise := rfl
@[simp] theorem setPcb_nret (s : State) (p : Nat) (b : Pcb) : (s.setPcb p b).nret = s.nret := rfl
@[simp] theorem setPcb_sessions (s : State) (p : Nat) (b : Pcb) : (s.setPcb p b).sessions = s.sessions := rfl
@[simp] theorem setPcb_nextSession (s : State) (p : Nat) (b : Pcb) : (s.setPcb p b).nextSession = s.nextSession := rfl
@[simp] theorem setPcb_spdm (s : State) (p : Nat) (b : Pcb) : (s.setPcb p b).spdm = s.spdm := rfl
@[simp] theorem setPcb_reply (s : State) (p : Nat) (b : Pcb) : (s.setPcb p b).reply = s.reply := rfl
@[simp] theorem setPcb_sent (s : State) (p : Nat) (b : Pcb) : (s.setPcb p b).sent = s.sent := rfl
@[simp] theorem setPcb_inbound (s : State) (p : Nat) (b : Pcb) : (s.setPcb p b).inbound = s.inbound := rfl

/-! ### setReg -/

@[simp] theorem setReg_turn (s : State) (k : Nat) (st : StreamId) (r : Reg) (v : Word) : (s.setReg k st r v).turn = s.turn := rfl
@[simp] theorem setReg_agenda (s : State) (k : Nat) (st : StreamId) (r : Reg) (v : Word) : (s.setReg k st r v).agenda = s.agenda := rfl
@[simp] theorem setReg_order (s : State) (k : Nat) (st : StreamId) (r : Reg) (v : Word) : (s.setReg k st r v).order = s.order := rfl
@[simp] theorem setReg_nominal (s : State) (k : Nat) (st : StreamId) (r : Reg) (v : Word) : (s.setReg k st r v).nominal = s.nominal := rfl
@[simp] theorem setReg_draws (s : State) (k : Nat) (st : StreamId) (r : Reg) (v : Word) : (s.setReg k st r v).draws = s.draws := rfl
@[simp] theorem setReg_shafts (s : State) (k : Nat) (st : StreamId) (r : Reg) (v : Word) : (s.setReg k st r v).shafts = s.shafts := rfl
@[simp] theorem setReg_clusters (s : State) (k : Nat) (st : StreamId) (r : Reg) (v : Word) : (s.setReg k st r v).clusters = s.clusters := rfl
@[simp] theorem setReg_hbm (s : State) (k : Nat) (st : StreamId) (r : Reg) (v : Word) : (s.setReg k st r v).hbm = s.hbm := rfl
@[simp] theorem setReg_hbmKey (s : State) (k : Nat) (st : StreamId) (r : Reg) (v : Word) : (s.setReg k st r v).hbmKey = s.hbmKey := rfl
@[simp] theorem setReg_poison (s : State) (k : Nat) (st : StreamId) (r : Reg) (v : Word) : (s.setReg k st r v).poison = s.poison := rfl
@[simp] theorem setReg_host (s : State) (k : Nat) (st : StreamId) (r : Reg) (v : Word) : (s.setReg k st r v).host = s.host := rfl
@[simp] theorem setReg_hostBad (s : State) (k : Nat) (st : StreamId) (r : Reg) (v : Word) : (s.setReg k st r v).hostBad = s.hostBad := rfl
@[simp] theorem setReg_records (s : State) (k : Nat) (st : StreamId) (r : Reg) (v : Word) : (s.setReg k st r v).records = s.records := rfl
@[simp] theorem setReg_dispen (s : State) (k : Nat) (st : StreamId) (r : Reg) (v : Word) : (s.setReg k st r v).dispen = s.dispen := rfl
@[simp] theorem setReg_recsel (s : State) (k : Nat) (st : StreamId) (r : Reg) (v : Word) : (s.setReg k st r v).recsel = s.recsel := rfl
@[simp] theorem setReg_reccmdErr (s : State) (k : Nat) (st : StreamId) (r : Reg) (v : Word) : (s.setReg k st r v).reccmdErr = s.reccmdErr := rfl
@[simp] theorem setReg_fqBase (s : State) (k : Nat) (st : StreamId) (r : Reg) (v : Word) : (s.setReg k st r v).fqBase = s.fqBase := rfl
@[simp] theorem setReg_fqLog (s : State) (k : Nat) (st : StreamId) (r : Reg) (v : Word) : (s.setReg k st r v).fqLog = s.fqLog := rfl
@[simp] theorem setReg_fqInten (s : State) (k : Nat) (st : StreamId) (r : Reg) (v : Word) : (s.setReg k st r v).fqInten = s.fqInten := rfl
@[simp] theorem setReg_fqHead (s : State) (k : Nat) (st : StreamId) (r : Reg) (v : Word) : (s.setReg k st r v).fqHead = s.fqHead := rfl
@[simp] theorem setReg_fqTail (s : State) (k : Nat) (st : StreamId) (r : Reg) (v : Word) : (s.setReg k st r v).fqTail = s.fqTail := rfl
@[simp] theorem setReg_reports (s : State) (k : Nat) (st : StreamId) (r : Reg) (v : Word) : (s.setReg k st r v).reports = s.reports := rfl
@[simp] theorem setReg_msix (s : State) (k : Nat) (st : StreamId) (r : Reg) (v : Word) : (s.setReg k st r v).msix = s.msix := rfl
@[simp] theorem setReg_completions (s : State) (k : Nat) (st : StreamId) (r : Reg) (v : Word) : (s.setReg k st r v).completions = s.completions := rfl
@[simp] theorem setReg_dphasers (s : State) (k : Nat) (st : StreamId) (r : Reg) (v : Word) : (s.setReg k st r v).dphasers = s.dphasers := rfl
@[simp] theorem setReg_pcbs (s : State) (k : Nat) (st : StreamId) (r : Reg) (v : Word) : (s.setReg k st r v).pcbs = s.pcbs := rfl
@[simp] theorem setReg_saves (s : State) (k : Nat) (st : StreamId) (r : Reg) (v : Word) : (s.setReg k st r v).saves = s.saves := rfl
@[simp] theorem setReg_keys (s : State) (k : Nat) (st : StreamId) (r : Reg) (v : Word) : (s.setReg k st r v).keys = s.keys := rfl
@[simp] theorem setReg_resetDue (s : State) (k : Nat) (st : StreamId) (r : Reg) (v : Word) : (s.setReg k st r v).resetDue = s.resetDue := rfl
@[simp] theorem setReg_romDigest (s : State) (k : Nat) (st : StreamId) (r : Reg) (v : Word) : (s.setReg k st r v).romDigest = s.romDigest := rfl
@[simp] theorem setReg_fwDigest (s : State) (k : Nat) (st : StreamId) (r : Reg) (v : Word) : (s.setReg k st r v).fwDigest = s.fwDigest := rfl
@[simp] theorem setReg_idDigest (s : State) (k : Nat) (st : StreamId) (r : Reg) (v : Word) : (s.setReg k st r v).idDigest = s.idDigest := rfl
@[simp] theorem setReg_measured (s : State) (k : Nat) (st : StreamId) (r : Reg) (v : Word) : (s.setReg k st r v).measured = s.measured := rfl
@[simp] theorem setReg_invPart (s : State) (k : Nat) (st : StreamId) (r : Reg) (v : Word) : (s.setReg k st r v).invPart = s.invPart := rfl
@[simp] theorem setReg_invAll (s : State) (k : Nat) (st : StreamId) (r : Reg) (v : Word) : (s.setReg k st r v).invAll = s.invAll := rfl
@[simp] theorem setReg_invSize (s : State) (k : Nat) (st : StreamId) (r : Reg) (v : Word) : (s.setReg k st r v).invSize = s.invSize := rfl
@[simp] theorem setReg_invBusy (s : State) (k : Nat) (st : StreamId) (r : Reg) (v : Word) : (s.setReg k st r v).invBusy = s.invBusy := rfl
@[simp] theorem setReg_invAt (s : State) (k : Nat) (st : StreamId) (r : Reg) (v : Word) : (s.setReg k st r v).invAt = s.invAt := rfl
@[simp] theorem setReg_invVa (s : State) (k : Nat) (st : StreamId) (r : Reg) (v : Word) : (s.setReg k st r v).invVa = s.invVa := rfl
@[simp] theorem setReg_windows (s : State) (k : Nat) (st : StreamId) (r : Reg) (v : Word) : (s.setReg k st r v).windows = s.windows := rfl
@[simp] theorem setReg_logCount (s : State) (k : Nat) (st : StreamId) (r : Reg) (v : Word) : (s.setReg k st r v).logCount = s.logCount := rfl
@[simp] theorem setReg_log (s : State) (k : Nat) (st : StreamId) (r : Reg) (v : Word) : (s.setReg k st r v).log = s.log := rfl
@[simp] theorem setReg_psust (s : State) (k : Nat) (st : StreamId) (r : Reg) (v : Word) : (s.setReg k st r v).psust = s.psust := rfl
@[simp] theorem setReg_psprint (s : State) (k : Nat) (st : StreamId) (r : Reg) (v : Word) : (s.setReg k st r v).psprint = s.psprint := rfl
@[simp] theorem setReg_spen (s : State) (k : Nat) (st : StreamId) (r : Reg) (v : Word) : (s.setReg k st r v).spen = s.spen := rfl
@[simp] theorem setReg_pavg (s : State) (k : Nat) (st : StreamId) (r : Reg) (v : Word) : (s.setReg k st r v).pavg = s.pavg := rfl
@[simp] theorem setReg_lrErr (s : State) (k : Nat) (st : StreamId) (r : Reg) (v : Word) : (s.setReg k st r v).lrErr = s.lrErr := rfl
@[simp] theorem setReg_energy (s : State) (k : Nat) (st : StreamId) (r : Reg) (v : Word) : (s.setReg k st r v).energy = s.energy := rfl
@[simp] theorem setReg_ports (s : State) (k : Nat) (st : StreamId) (r : Reg) (v : Word) : (s.setReg k st r v).ports = s.ports := rfl
@[simp] theorem setReg_routes (s : State) (k : Nat) (st : StreamId) (r : Reg) (v : Word) : (s.setReg k st r v).routes = s.routes := rfl
@[simp] theorem setReg_devnum (s : State) (k : Nat) (st : StreamId) (r : Reg) (v : Word) : (s.setReg k st r v).devnum = s.devnum := rfl
@[simp] theorem setReg_devnumSet (s : State) (k : Nat) (st : StreamId) (r : Reg) (v : Word) : (s.setReg k st r v).devnumSet = s.devnumSet := rfl
@[simp] theorem setReg_fwstat (s : State) (k : Nat) (st : StreamId) (r : Reg) (v : Word) : (s.setReg k st r v).fwstat = s.fwstat := rfl
@[simp] theorem setReg_fwReady (s : State) (k : Nat) (st : StreamId) (r : Reg) (v : Word) : (s.setReg k st r v).fwReady = s.fwReady := rfl
@[simp] theorem setReg_fwContent (s : State) (k : Nat) (st : StreamId) (r : Reg) (v : Word) : (s.setReg k st r v).fwContent = s.fwContent := rfl
@[simp] theorem setReg_fwVersion (s : State) (k : Nat) (st : StreamId) (r : Reg) (v : Word) : (s.setReg k st r v).fwVersion = s.fwVersion := rfl
@[simp] theorem setReg_stage (s : State) (k : Nat) (st : StreamId) (r : Reg) (v : Word) : (s.setReg k st r v).stage = s.stage := rfl
@[simp] theorem setReg_calcl (s : State) (k : Nat) (st : StreamId) (r : Reg) (v : Word) : (s.setReg k st r v).calcl = s.calcl := rfl
@[simp] theorem setReg_cut (s : State) (k : Nat) (st : StreamId) (r : Reg) (v : Word) : (s.setReg k st r v).cut = s.cut := rfl
@[simp] theorem setReg_advise (s : State) (k : Nat) (st : StreamId) (r : Reg) (v : Word) : (s.setReg k st r v).advise = s.advise := rfl
@[simp] theorem setReg_nret (s : State) (k : Nat) (st : StreamId) (r : Reg) (v : Word) : (s.setReg k st r v).nret = s.nret := rfl
@[simp] theorem setReg_sessions (s : State) (k : Nat) (st : StreamId) (r : Reg) (v : Word) : (s.setReg k st r v).sessions = s.sessions := rfl
@[simp] theorem setReg_nextSession (s : State) (k : Nat) (st : StreamId) (r : Reg) (v : Word) : (s.setReg k st r v).nextSession = s.nextSession := rfl
@[simp] theorem setReg_spdm (s : State) (k : Nat) (st : StreamId) (r : Reg) (v : Word) : (s.setReg k st r v).spdm = s.spdm := rfl
@[simp] theorem setReg_reply (s : State) (k : Nat) (st : StreamId) (r : Reg) (v : Word) : (s.setReg k st r v).reply = s.reply := rfl
@[simp] theorem setReg_sent (s : State) (k : Nat) (st : StreamId) (r : Reg) (v : Word) : (s.setReg k st r v).sent = s.sent := rfl
@[simp] theorem setReg_inbound (s : State) (k : Nat) (st : StreamId) (r : Reg) (v : Word) : (s.setReg k st r v).inbound = s.inbound := rfl

/-! ### retire -/

@[simp] theorem retire_turn (s : State) (k : Nat) (st : StreamId) (len : Nat) : (s.retire k st len).turn = s.turn := rfl
@[simp] theorem retire_agenda (s : State) (k : Nat) (st : StreamId) (len : Nat) : (s.retire k st len).agenda = s.agenda := rfl
@[simp] theorem retire_order (s : State) (k : Nat) (st : StreamId) (len : Nat) : (s.retire k st len).order = s.order := rfl
@[simp] theorem retire_nominal (s : State) (k : Nat) (st : StreamId) (len : Nat) : (s.retire k st len).nominal = s.nominal := rfl
@[simp] theorem retire_draws (s : State) (k : Nat) (st : StreamId) (len : Nat) : (s.retire k st len).draws = s.draws := rfl
@[simp] theorem retire_shafts (s : State) (k : Nat) (st : StreamId) (len : Nat) : (s.retire k st len).shafts = s.shafts := rfl
@[simp] theorem retire_clusters (s : State) (k : Nat) (st : StreamId) (len : Nat) : (s.retire k st len).clusters = s.clusters := rfl
@[simp] theorem retire_hbm (s : State) (k : Nat) (st : StreamId) (len : Nat) : (s.retire k st len).hbm = s.hbm := rfl
@[simp] theorem retire_hbmKey (s : State) (k : Nat) (st : StreamId) (len : Nat) : (s.retire k st len).hbmKey = s.hbmKey := rfl
@[simp] theorem retire_poison (s : State) (k : Nat) (st : StreamId) (len : Nat) : (s.retire k st len).poison = s.poison := rfl
@[simp] theorem retire_host (s : State) (k : Nat) (st : StreamId) (len : Nat) : (s.retire k st len).host = s.host := rfl
@[simp] theorem retire_hostBad (s : State) (k : Nat) (st : StreamId) (len : Nat) : (s.retire k st len).hostBad = s.hostBad := rfl
@[simp] theorem retire_records (s : State) (k : Nat) (st : StreamId) (len : Nat) : (s.retire k st len).records = s.records := rfl
@[simp] theorem retire_dispen (s : State) (k : Nat) (st : StreamId) (len : Nat) : (s.retire k st len).dispen = s.dispen := rfl
@[simp] theorem retire_recsel (s : State) (k : Nat) (st : StreamId) (len : Nat) : (s.retire k st len).recsel = s.recsel := rfl
@[simp] theorem retire_reccmdErr (s : State) (k : Nat) (st : StreamId) (len : Nat) : (s.retire k st len).reccmdErr = s.reccmdErr := rfl
@[simp] theorem retire_fqBase (s : State) (k : Nat) (st : StreamId) (len : Nat) : (s.retire k st len).fqBase = s.fqBase := rfl
@[simp] theorem retire_fqLog (s : State) (k : Nat) (st : StreamId) (len : Nat) : (s.retire k st len).fqLog = s.fqLog := rfl
@[simp] theorem retire_fqInten (s : State) (k : Nat) (st : StreamId) (len : Nat) : (s.retire k st len).fqInten = s.fqInten := rfl
@[simp] theorem retire_fqHead (s : State) (k : Nat) (st : StreamId) (len : Nat) : (s.retire k st len).fqHead = s.fqHead := rfl
@[simp] theorem retire_fqTail (s : State) (k : Nat) (st : StreamId) (len : Nat) : (s.retire k st len).fqTail = s.fqTail := rfl
@[simp] theorem retire_reports (s : State) (k : Nat) (st : StreamId) (len : Nat) : (s.retire k st len).reports = s.reports := rfl
@[simp] theorem retire_msix (s : State) (k : Nat) (st : StreamId) (len : Nat) : (s.retire k st len).msix = s.msix := rfl
@[simp] theorem retire_completions (s : State) (k : Nat) (st : StreamId) (len : Nat) : (s.retire k st len).completions = s.completions := rfl
@[simp] theorem retire_dphasers (s : State) (k : Nat) (st : StreamId) (len : Nat) : (s.retire k st len).dphasers = s.dphasers := rfl
@[simp] theorem retire_pcbs (s : State) (k : Nat) (st : StreamId) (len : Nat) : (s.retire k st len).pcbs = s.pcbs := rfl
@[simp] theorem retire_saves (s : State) (k : Nat) (st : StreamId) (len : Nat) : (s.retire k st len).saves = s.saves := rfl
@[simp] theorem retire_keys (s : State) (k : Nat) (st : StreamId) (len : Nat) : (s.retire k st len).keys = s.keys := rfl
@[simp] theorem retire_resetDue (s : State) (k : Nat) (st : StreamId) (len : Nat) : (s.retire k st len).resetDue = s.resetDue := rfl
@[simp] theorem retire_romDigest (s : State) (k : Nat) (st : StreamId) (len : Nat) : (s.retire k st len).romDigest = s.romDigest := rfl
@[simp] theorem retire_fwDigest (s : State) (k : Nat) (st : StreamId) (len : Nat) : (s.retire k st len).fwDigest = s.fwDigest := rfl
@[simp] theorem retire_idDigest (s : State) (k : Nat) (st : StreamId) (len : Nat) : (s.retire k st len).idDigest = s.idDigest := rfl
@[simp] theorem retire_measured (s : State) (k : Nat) (st : StreamId) (len : Nat) : (s.retire k st len).measured = s.measured := rfl
@[simp] theorem retire_invPart (s : State) (k : Nat) (st : StreamId) (len : Nat) : (s.retire k st len).invPart = s.invPart := rfl
@[simp] theorem retire_invAll (s : State) (k : Nat) (st : StreamId) (len : Nat) : (s.retire k st len).invAll = s.invAll := rfl
@[simp] theorem retire_invSize (s : State) (k : Nat) (st : StreamId) (len : Nat) : (s.retire k st len).invSize = s.invSize := rfl
@[simp] theorem retire_invBusy (s : State) (k : Nat) (st : StreamId) (len : Nat) : (s.retire k st len).invBusy = s.invBusy := rfl
@[simp] theorem retire_invAt (s : State) (k : Nat) (st : StreamId) (len : Nat) : (s.retire k st len).invAt = s.invAt := rfl
@[simp] theorem retire_invVa (s : State) (k : Nat) (st : StreamId) (len : Nat) : (s.retire k st len).invVa = s.invVa := rfl
@[simp] theorem retire_windows (s : State) (k : Nat) (st : StreamId) (len : Nat) : (s.retire k st len).windows = s.windows := rfl
@[simp] theorem retire_logCount (s : State) (k : Nat) (st : StreamId) (len : Nat) : (s.retire k st len).logCount = s.logCount := rfl
@[simp] theorem retire_log (s : State) (k : Nat) (st : StreamId) (len : Nat) : (s.retire k st len).log = s.log := rfl
@[simp] theorem retire_psust (s : State) (k : Nat) (st : StreamId) (len : Nat) : (s.retire k st len).psust = s.psust := rfl
@[simp] theorem retire_psprint (s : State) (k : Nat) (st : StreamId) (len : Nat) : (s.retire k st len).psprint = s.psprint := rfl
@[simp] theorem retire_spen (s : State) (k : Nat) (st : StreamId) (len : Nat) : (s.retire k st len).spen = s.spen := rfl
@[simp] theorem retire_pavg (s : State) (k : Nat) (st : StreamId) (len : Nat) : (s.retire k st len).pavg = s.pavg := rfl
@[simp] theorem retire_lrErr (s : State) (k : Nat) (st : StreamId) (len : Nat) : (s.retire k st len).lrErr = s.lrErr := rfl
@[simp] theorem retire_energy (s : State) (k : Nat) (st : StreamId) (len : Nat) : (s.retire k st len).energy = s.energy := rfl
@[simp] theorem retire_ports (s : State) (k : Nat) (st : StreamId) (len : Nat) : (s.retire k st len).ports = s.ports := rfl
@[simp] theorem retire_routes (s : State) (k : Nat) (st : StreamId) (len : Nat) : (s.retire k st len).routes = s.routes := rfl
@[simp] theorem retire_devnum (s : State) (k : Nat) (st : StreamId) (len : Nat) : (s.retire k st len).devnum = s.devnum := rfl
@[simp] theorem retire_devnumSet (s : State) (k : Nat) (st : StreamId) (len : Nat) : (s.retire k st len).devnumSet = s.devnumSet := rfl
@[simp] theorem retire_fwstat (s : State) (k : Nat) (st : StreamId) (len : Nat) : (s.retire k st len).fwstat = s.fwstat := rfl
@[simp] theorem retire_fwReady (s : State) (k : Nat) (st : StreamId) (len : Nat) : (s.retire k st len).fwReady = s.fwReady := rfl
@[simp] theorem retire_fwContent (s : State) (k : Nat) (st : StreamId) (len : Nat) : (s.retire k st len).fwContent = s.fwContent := rfl
@[simp] theorem retire_fwVersion (s : State) (k : Nat) (st : StreamId) (len : Nat) : (s.retire k st len).fwVersion = s.fwVersion := rfl
@[simp] theorem retire_stage (s : State) (k : Nat) (st : StreamId) (len : Nat) : (s.retire k st len).stage = s.stage := rfl
@[simp] theorem retire_calcl (s : State) (k : Nat) (st : StreamId) (len : Nat) : (s.retire k st len).calcl = s.calcl := rfl
@[simp] theorem retire_cut (s : State) (k : Nat) (st : StreamId) (len : Nat) : (s.retire k st len).cut = s.cut := rfl
@[simp] theorem retire_advise (s : State) (k : Nat) (st : StreamId) (len : Nat) : (s.retire k st len).advise = s.advise := rfl
@[simp] theorem retire_nret (s : State) (k : Nat) (st : StreamId) (len : Nat) : (s.retire k st len).nret = s.nret := rfl
@[simp] theorem retire_sessions (s : State) (k : Nat) (st : StreamId) (len : Nat) : (s.retire k st len).sessions = s.sessions := rfl
@[simp] theorem retire_nextSession (s : State) (k : Nat) (st : StreamId) (len : Nat) : (s.retire k st len).nextSession = s.nextSession := rfl
@[simp] theorem retire_spdm (s : State) (k : Nat) (st : StreamId) (len : Nat) : (s.retire k st len).spdm = s.spdm := rfl
@[simp] theorem retire_reply (s : State) (k : Nat) (st : StreamId) (len : Nat) : (s.retire k st len).reply = s.reply := rfl
@[simp] theorem retire_sent (s : State) (k : Nat) (st : StreamId) (len : Nat) : (s.retire k st len).sent = s.sent := rfl
@[simp] theorem retire_inbound (s : State) (k : Nat) (st : StreamId) (len : Nat) : (s.retire k st len).inbound = s.inbound := rfl

/-! ### commit -/

@[simp] theorem commit_turn (s : State) (k : Nat) : (s.commit k).turn = s.turn := rfl
@[simp] theorem commit_agenda (s : State) (k : Nat) : (s.commit k).agenda = s.agenda := rfl
@[simp] theorem commit_order (s : State) (k : Nat) : (s.commit k).order = s.order := rfl
@[simp] theorem commit_nominal (s : State) (k : Nat) : (s.commit k).nominal = s.nominal := rfl
@[simp] theorem commit_draws (s : State) (k : Nat) : (s.commit k).draws = s.draws := rfl
@[simp] theorem commit_shafts (s : State) (k : Nat) : (s.commit k).shafts = s.shafts := rfl
@[simp] theorem commit_clusters (s : State) (k : Nat) : (s.commit k).clusters = s.clusters := rfl
@[simp] theorem commit_hbm (s : State) (k : Nat) : (s.commit k).hbm = s.hbm := rfl
@[simp] theorem commit_hbmKey (s : State) (k : Nat) : (s.commit k).hbmKey = s.hbmKey := rfl
@[simp] theorem commit_poison (s : State) (k : Nat) : (s.commit k).poison = s.poison := rfl
@[simp] theorem commit_host (s : State) (k : Nat) : (s.commit k).host = s.host := rfl
@[simp] theorem commit_hostBad (s : State) (k : Nat) : (s.commit k).hostBad = s.hostBad := rfl
@[simp] theorem commit_records (s : State) (k : Nat) : (s.commit k).records = s.records := rfl
@[simp] theorem commit_dispen (s : State) (k : Nat) : (s.commit k).dispen = s.dispen := rfl
@[simp] theorem commit_recsel (s : State) (k : Nat) : (s.commit k).recsel = s.recsel := rfl
@[simp] theorem commit_reccmdErr (s : State) (k : Nat) : (s.commit k).reccmdErr = s.reccmdErr := rfl
@[simp] theorem commit_fqBase (s : State) (k : Nat) : (s.commit k).fqBase = s.fqBase := rfl
@[simp] theorem commit_fqLog (s : State) (k : Nat) : (s.commit k).fqLog = s.fqLog := rfl
@[simp] theorem commit_fqInten (s : State) (k : Nat) : (s.commit k).fqInten = s.fqInten := rfl
@[simp] theorem commit_fqHead (s : State) (k : Nat) : (s.commit k).fqHead = s.fqHead := rfl
@[simp] theorem commit_fqTail (s : State) (k : Nat) : (s.commit k).fqTail = s.fqTail := rfl
@[simp] theorem commit_reports (s : State) (k : Nat) : (s.commit k).reports = s.reports := rfl
@[simp] theorem commit_msix (s : State) (k : Nat) : (s.commit k).msix = s.msix := rfl
@[simp] theorem commit_completions (s : State) (k : Nat) : (s.commit k).completions = s.completions := rfl
@[simp] theorem commit_dphasers (s : State) (k : Nat) : (s.commit k).dphasers = s.dphasers := rfl
@[simp] theorem commit_pcbs (s : State) (k : Nat) : (s.commit k).pcbs = s.pcbs := rfl
@[simp] theorem commit_saves (s : State) (k : Nat) : (s.commit k).saves = s.saves := rfl
@[simp] theorem commit_keys (s : State) (k : Nat) : (s.commit k).keys = s.keys := rfl
@[simp] theorem commit_resetDue (s : State) (k : Nat) : (s.commit k).resetDue = s.resetDue := rfl
@[simp] theorem commit_romDigest (s : State) (k : Nat) : (s.commit k).romDigest = s.romDigest := rfl
@[simp] theorem commit_fwDigest (s : State) (k : Nat) : (s.commit k).fwDigest = s.fwDigest := rfl
@[simp] theorem commit_idDigest (s : State) (k : Nat) : (s.commit k).idDigest = s.idDigest := rfl
@[simp] theorem commit_measured (s : State) (k : Nat) : (s.commit k).measured = s.measured := rfl
@[simp] theorem commit_invPart (s : State) (k : Nat) : (s.commit k).invPart = s.invPart := rfl
@[simp] theorem commit_invAll (s : State) (k : Nat) : (s.commit k).invAll = s.invAll := rfl
@[simp] theorem commit_invSize (s : State) (k : Nat) : (s.commit k).invSize = s.invSize := rfl
@[simp] theorem commit_invBusy (s : State) (k : Nat) : (s.commit k).invBusy = s.invBusy := rfl
@[simp] theorem commit_invAt (s : State) (k : Nat) : (s.commit k).invAt = s.invAt := rfl
@[simp] theorem commit_invVa (s : State) (k : Nat) : (s.commit k).invVa = s.invVa := rfl
@[simp] theorem commit_windows (s : State) (k : Nat) : (s.commit k).windows = s.windows := rfl
@[simp] theorem commit_logCount (s : State) (k : Nat) : (s.commit k).logCount = s.logCount := rfl
@[simp] theorem commit_log (s : State) (k : Nat) : (s.commit k).log = s.log := rfl
@[simp] theorem commit_psust (s : State) (k : Nat) : (s.commit k).psust = s.psust := rfl
@[simp] theorem commit_psprint (s : State) (k : Nat) : (s.commit k).psprint = s.psprint := rfl
@[simp] theorem commit_spen (s : State) (k : Nat) : (s.commit k).spen = s.spen := rfl
@[simp] theorem commit_pavg (s : State) (k : Nat) : (s.commit k).pavg = s.pavg := rfl
@[simp] theorem commit_lrErr (s : State) (k : Nat) : (s.commit k).lrErr = s.lrErr := rfl
@[simp] theorem commit_energy (s : State) (k : Nat) : (s.commit k).energy = s.energy := rfl
@[simp] theorem commit_ports (s : State) (k : Nat) : (s.commit k).ports = s.ports := rfl
@[simp] theorem commit_routes (s : State) (k : Nat) : (s.commit k).routes = s.routes := rfl
@[simp] theorem commit_devnum (s : State) (k : Nat) : (s.commit k).devnum = s.devnum := rfl
@[simp] theorem commit_devnumSet (s : State) (k : Nat) : (s.commit k).devnumSet = s.devnumSet := rfl
@[simp] theorem commit_fwstat (s : State) (k : Nat) : (s.commit k).fwstat = s.fwstat := rfl
@[simp] theorem commit_fwReady (s : State) (k : Nat) : (s.commit k).fwReady = s.fwReady := rfl
@[simp] theorem commit_fwContent (s : State) (k : Nat) : (s.commit k).fwContent = s.fwContent := rfl
@[simp] theorem commit_fwVersion (s : State) (k : Nat) : (s.commit k).fwVersion = s.fwVersion := rfl
@[simp] theorem commit_stage (s : State) (k : Nat) : (s.commit k).stage = s.stage := rfl
@[simp] theorem commit_calcl (s : State) (k : Nat) : (s.commit k).calcl = s.calcl := rfl
@[simp] theorem commit_cut (s : State) (k : Nat) : (s.commit k).cut = s.cut := rfl
@[simp] theorem commit_advise (s : State) (k : Nat) : (s.commit k).advise = s.advise := rfl
@[simp] theorem commit_nret (s : State) (k : Nat) : (s.commit k).nret = s.nret := rfl
@[simp] theorem commit_sessions (s : State) (k : Nat) : (s.commit k).sessions = s.sessions := rfl
@[simp] theorem commit_nextSession (s : State) (k : Nat) : (s.commit k).nextSession = s.nextSession := rfl
@[simp] theorem commit_spdm (s : State) (k : Nat) : (s.commit k).spdm = s.spdm := rfl
@[simp] theorem commit_reply (s : State) (k : Nat) : (s.commit k).reply = s.reply := rfl
@[simp] theorem commit_sent (s : State) (k : Nat) : (s.commit k).sent = s.sent := rfl
@[simp] theorem commit_inbound (s : State) (k : Nat) : (s.commit k).inbound = s.inbound := rfl

/-! ### hbmPut -/

@[simp] theorem hbmPut_turn (s : State) (key pa : Nat) (bs : List Byte) : (s.hbmPut key pa bs).turn = s.turn := rfl
@[simp] theorem hbmPut_agenda (s : State) (key pa : Nat) (bs : List Byte) : (s.hbmPut key pa bs).agenda = s.agenda := rfl
@[simp] theorem hbmPut_order (s : State) (key pa : Nat) (bs : List Byte) : (s.hbmPut key pa bs).order = s.order := rfl
@[simp] theorem hbmPut_nominal (s : State) (key pa : Nat) (bs : List Byte) : (s.hbmPut key pa bs).nominal = s.nominal := rfl
@[simp] theorem hbmPut_draws (s : State) (key pa : Nat) (bs : List Byte) : (s.hbmPut key pa bs).draws = s.draws := rfl
@[simp] theorem hbmPut_cores (s : State) (key pa : Nat) (bs : List Byte) : (s.hbmPut key pa bs).cores = s.cores := rfl
@[simp] theorem hbmPut_shafts (s : State) (key pa : Nat) (bs : List Byte) : (s.hbmPut key pa bs).shafts = s.shafts := rfl
@[simp] theorem hbmPut_clusters (s : State) (key pa : Nat) (bs : List Byte) : (s.hbmPut key pa bs).clusters = s.clusters := rfl
@[simp] theorem hbmPut_host (s : State) (key pa : Nat) (bs : List Byte) : (s.hbmPut key pa bs).host = s.host := rfl
@[simp] theorem hbmPut_hostBad (s : State) (key pa : Nat) (bs : List Byte) : (s.hbmPut key pa bs).hostBad = s.hostBad := rfl
@[simp] theorem hbmPut_records (s : State) (key pa : Nat) (bs : List Byte) : (s.hbmPut key pa bs).records = s.records := rfl
@[simp] theorem hbmPut_dispen (s : State) (key pa : Nat) (bs : List Byte) : (s.hbmPut key pa bs).dispen = s.dispen := rfl
@[simp] theorem hbmPut_recsel (s : State) (key pa : Nat) (bs : List Byte) : (s.hbmPut key pa bs).recsel = s.recsel := rfl
@[simp] theorem hbmPut_reccmdErr (s : State) (key pa : Nat) (bs : List Byte) : (s.hbmPut key pa bs).reccmdErr = s.reccmdErr := rfl
@[simp] theorem hbmPut_fqBase (s : State) (key pa : Nat) (bs : List Byte) : (s.hbmPut key pa bs).fqBase = s.fqBase := rfl
@[simp] theorem hbmPut_fqLog (s : State) (key pa : Nat) (bs : List Byte) : (s.hbmPut key pa bs).fqLog = s.fqLog := rfl
@[simp] theorem hbmPut_fqInten (s : State) (key pa : Nat) (bs : List Byte) : (s.hbmPut key pa bs).fqInten = s.fqInten := rfl
@[simp] theorem hbmPut_fqHead (s : State) (key pa : Nat) (bs : List Byte) : (s.hbmPut key pa bs).fqHead = s.fqHead := rfl
@[simp] theorem hbmPut_fqTail (s : State) (key pa : Nat) (bs : List Byte) : (s.hbmPut key pa bs).fqTail = s.fqTail := rfl
@[simp] theorem hbmPut_reports (s : State) (key pa : Nat) (bs : List Byte) : (s.hbmPut key pa bs).reports = s.reports := rfl
@[simp] theorem hbmPut_msix (s : State) (key pa : Nat) (bs : List Byte) : (s.hbmPut key pa bs).msix = s.msix := rfl
@[simp] theorem hbmPut_completions (s : State) (key pa : Nat) (bs : List Byte) : (s.hbmPut key pa bs).completions = s.completions := rfl
@[simp] theorem hbmPut_dphasers (s : State) (key pa : Nat) (bs : List Byte) : (s.hbmPut key pa bs).dphasers = s.dphasers := rfl
@[simp] theorem hbmPut_pcbs (s : State) (key pa : Nat) (bs : List Byte) : (s.hbmPut key pa bs).pcbs = s.pcbs := rfl
@[simp] theorem hbmPut_saves (s : State) (key pa : Nat) (bs : List Byte) : (s.hbmPut key pa bs).saves = s.saves := rfl
@[simp] theorem hbmPut_keys (s : State) (key pa : Nat) (bs : List Byte) : (s.hbmPut key pa bs).keys = s.keys := rfl
@[simp] theorem hbmPut_resetDue (s : State) (key pa : Nat) (bs : List Byte) : (s.hbmPut key pa bs).resetDue = s.resetDue := rfl
@[simp] theorem hbmPut_romDigest (s : State) (key pa : Nat) (bs : List Byte) : (s.hbmPut key pa bs).romDigest = s.romDigest := rfl
@[simp] theorem hbmPut_fwDigest (s : State) (key pa : Nat) (bs : List Byte) : (s.hbmPut key pa bs).fwDigest = s.fwDigest := rfl
@[simp] theorem hbmPut_idDigest (s : State) (key pa : Nat) (bs : List Byte) : (s.hbmPut key pa bs).idDigest = s.idDigest := rfl
@[simp] theorem hbmPut_measured (s : State) (key pa : Nat) (bs : List Byte) : (s.hbmPut key pa bs).measured = s.measured := rfl
@[simp] theorem hbmPut_invPart (s : State) (key pa : Nat) (bs : List Byte) : (s.hbmPut key pa bs).invPart = s.invPart := rfl
@[simp] theorem hbmPut_invAll (s : State) (key pa : Nat) (bs : List Byte) : (s.hbmPut key pa bs).invAll = s.invAll := rfl
@[simp] theorem hbmPut_invSize (s : State) (key pa : Nat) (bs : List Byte) : (s.hbmPut key pa bs).invSize = s.invSize := rfl
@[simp] theorem hbmPut_invBusy (s : State) (key pa : Nat) (bs : List Byte) : (s.hbmPut key pa bs).invBusy = s.invBusy := rfl
@[simp] theorem hbmPut_invAt (s : State) (key pa : Nat) (bs : List Byte) : (s.hbmPut key pa bs).invAt = s.invAt := rfl
@[simp] theorem hbmPut_invVa (s : State) (key pa : Nat) (bs : List Byte) : (s.hbmPut key pa bs).invVa = s.invVa := rfl
@[simp] theorem hbmPut_windows (s : State) (key pa : Nat) (bs : List Byte) : (s.hbmPut key pa bs).windows = s.windows := rfl
@[simp] theorem hbmPut_logCount (s : State) (key pa : Nat) (bs : List Byte) : (s.hbmPut key pa bs).logCount = s.logCount := rfl
@[simp] theorem hbmPut_log (s : State) (key pa : Nat) (bs : List Byte) : (s.hbmPut key pa bs).log = s.log := rfl
@[simp] theorem hbmPut_psust (s : State) (key pa : Nat) (bs : List Byte) : (s.hbmPut key pa bs).psust = s.psust := rfl
@[simp] theorem hbmPut_psprint (s : State) (key pa : Nat) (bs : List Byte) : (s.hbmPut key pa bs).psprint = s.psprint := rfl
@[simp] theorem hbmPut_spen (s : State) (key pa : Nat) (bs : List Byte) : (s.hbmPut key pa bs).spen = s.spen := rfl
@[simp] theorem hbmPut_pavg (s : State) (key pa : Nat) (bs : List Byte) : (s.hbmPut key pa bs).pavg = s.pavg := rfl
@[simp] theorem hbmPut_lrErr (s : State) (key pa : Nat) (bs : List Byte) : (s.hbmPut key pa bs).lrErr = s.lrErr := rfl
@[simp] theorem hbmPut_energy (s : State) (key pa : Nat) (bs : List Byte) : (s.hbmPut key pa bs).energy = s.energy := rfl
@[simp] theorem hbmPut_ports (s : State) (key pa : Nat) (bs : List Byte) : (s.hbmPut key pa bs).ports = s.ports := rfl
@[simp] theorem hbmPut_routes (s : State) (key pa : Nat) (bs : List Byte) : (s.hbmPut key pa bs).routes = s.routes := rfl
@[simp] theorem hbmPut_devnum (s : State) (key pa : Nat) (bs : List Byte) : (s.hbmPut key pa bs).devnum = s.devnum := rfl
@[simp] theorem hbmPut_devnumSet (s : State) (key pa : Nat) (bs : List Byte) : (s.hbmPut key pa bs).devnumSet = s.devnumSet := rfl
@[simp] theorem hbmPut_fwstat (s : State) (key pa : Nat) (bs : List Byte) : (s.hbmPut key pa bs).fwstat = s.fwstat := rfl
@[simp] theorem hbmPut_fwReady (s : State) (key pa : Nat) (bs : List Byte) : (s.hbmPut key pa bs).fwReady = s.fwReady := rfl
@[simp] theorem hbmPut_fwContent (s : State) (key pa : Nat) (bs : List Byte) : (s.hbmPut key pa bs).fwContent = s.fwContent := rfl
@[simp] theorem hbmPut_fwVersion (s : State) (key pa : Nat) (bs : List Byte) : (s.hbmPut key pa bs).fwVersion = s.fwVersion := rfl
@[simp] theorem hbmPut_stage (s : State) (key pa : Nat) (bs : List Byte) : (s.hbmPut key pa bs).stage = s.stage := rfl
@[simp] theorem hbmPut_calcl (s : State) (key pa : Nat) (bs : List Byte) : (s.hbmPut key pa bs).calcl = s.calcl := rfl
@[simp] theorem hbmPut_cut (s : State) (key pa : Nat) (bs : List Byte) : (s.hbmPut key pa bs).cut = s.cut := rfl
@[simp] theorem hbmPut_advise (s : State) (key pa : Nat) (bs : List Byte) : (s.hbmPut key pa bs).advise = s.advise := rfl
@[simp] theorem hbmPut_nret (s : State) (key pa : Nat) (bs : List Byte) : (s.hbmPut key pa bs).nret = s.nret := rfl
@[simp] theorem hbmPut_sessions (s : State) (key pa : Nat) (bs : List Byte) : (s.hbmPut key pa bs).sessions = s.sessions := rfl
@[simp] theorem hbmPut_nextSession (s : State) (key pa : Nat) (bs : List Byte) : (s.hbmPut key pa bs).nextSession = s.nextSession := rfl
@[simp] theorem hbmPut_spdm (s : State) (key pa : Nat) (bs : List Byte) : (s.hbmPut key pa bs).spdm = s.spdm := rfl
@[simp] theorem hbmPut_reply (s : State) (key pa : Nat) (bs : List Byte) : (s.hbmPut key pa bs).reply = s.reply := rfl
@[simp] theorem hbmPut_sent (s : State) (key pa : Nat) (bs : List Byte) : (s.hbmPut key pa bs).sent = s.sent := rfl
@[simp] theorem hbmPut_inbound (s : State) (key pa : Nat) (bs : List Byte) : (s.hbmPut key pa bs).inbound = s.inbound := rfl

/-! ### tick -/

@[simp] theorem tick_turn (s : State) : (s.tick).turn = s.turn := rfl
@[simp] theorem tick_agenda (s : State) : (s.tick).agenda = s.agenda := rfl
@[simp] theorem tick_order (s : State) : (s.tick).order = s.order + 1 := rfl
@[simp] theorem tick_nominal (s : State) : (s.tick).nominal = s.nominal := rfl
@[simp] theorem tick_draws (s : State) : (s.tick).draws = s.draws := rfl
@[simp] theorem tick_cores (s : State) : (s.tick).cores = s.cores := rfl
@[simp] theorem tick_shafts (s : State) : (s.tick).shafts = s.shafts := rfl
@[simp] theorem tick_clusters (s : State) : (s.tick).clusters = s.clusters := rfl
@[simp] theorem tick_hbm (s : State) : (s.tick).hbm = s.hbm := rfl
@[simp] theorem tick_hbmKey (s : State) : (s.tick).hbmKey = s.hbmKey := rfl
@[simp] theorem tick_poison (s : State) : (s.tick).poison = s.poison := rfl
@[simp] theorem tick_host (s : State) : (s.tick).host = s.host := rfl
@[simp] theorem tick_hostBad (s : State) : (s.tick).hostBad = s.hostBad := rfl
@[simp] theorem tick_records (s : State) : (s.tick).records = s.records := rfl
@[simp] theorem tick_dispen (s : State) : (s.tick).dispen = s.dispen := rfl
@[simp] theorem tick_recsel (s : State) : (s.tick).recsel = s.recsel := rfl
@[simp] theorem tick_reccmdErr (s : State) : (s.tick).reccmdErr = s.reccmdErr := rfl
@[simp] theorem tick_fqBase (s : State) : (s.tick).fqBase = s.fqBase := rfl
@[simp] theorem tick_fqLog (s : State) : (s.tick).fqLog = s.fqLog := rfl
@[simp] theorem tick_fqInten (s : State) : (s.tick).fqInten = s.fqInten := rfl
@[simp] theorem tick_fqHead (s : State) : (s.tick).fqHead = s.fqHead := rfl
@[simp] theorem tick_fqTail (s : State) : (s.tick).fqTail = s.fqTail := rfl
@[simp] theorem tick_reports (s : State) : (s.tick).reports = s.reports := rfl
@[simp] theorem tick_msix (s : State) : (s.tick).msix = s.msix := rfl
@[simp] theorem tick_completions (s : State) : (s.tick).completions = s.completions := rfl
@[simp] theorem tick_dphasers (s : State) : (s.tick).dphasers = s.dphasers := rfl
@[simp] theorem tick_pcbs (s : State) : (s.tick).pcbs = s.pcbs := rfl
@[simp] theorem tick_saves (s : State) : (s.tick).saves = s.saves := rfl
@[simp] theorem tick_keys (s : State) : (s.tick).keys = s.keys := rfl
@[simp] theorem tick_resetDue (s : State) : (s.tick).resetDue = s.resetDue := rfl
@[simp] theorem tick_romDigest (s : State) : (s.tick).romDigest = s.romDigest := rfl
@[simp] theorem tick_fwDigest (s : State) : (s.tick).fwDigest = s.fwDigest := rfl
@[simp] theorem tick_idDigest (s : State) : (s.tick).idDigest = s.idDigest := rfl
@[simp] theorem tick_measured (s : State) : (s.tick).measured = s.measured := rfl
@[simp] theorem tick_invPart (s : State) : (s.tick).invPart = s.invPart := rfl
@[simp] theorem tick_invAll (s : State) : (s.tick).invAll = s.invAll := rfl
@[simp] theorem tick_invSize (s : State) : (s.tick).invSize = s.invSize := rfl
@[simp] theorem tick_invBusy (s : State) : (s.tick).invBusy = s.invBusy := rfl
@[simp] theorem tick_invAt (s : State) : (s.tick).invAt = s.invAt := rfl
@[simp] theorem tick_invVa (s : State) : (s.tick).invVa = s.invVa := rfl
@[simp] theorem tick_windows (s : State) : (s.tick).windows = s.windows := rfl
@[simp] theorem tick_logCount (s : State) : (s.tick).logCount = s.logCount := rfl
@[simp] theorem tick_log (s : State) : (s.tick).log = s.log := rfl
@[simp] theorem tick_psust (s : State) : (s.tick).psust = s.psust := rfl
@[simp] theorem tick_psprint (s : State) : (s.tick).psprint = s.psprint := rfl
@[simp] theorem tick_spen (s : State) : (s.tick).spen = s.spen := rfl
@[simp] theorem tick_pavg (s : State) : (s.tick).pavg = s.pavg := rfl
@[simp] theorem tick_lrErr (s : State) : (s.tick).lrErr = s.lrErr := rfl
@[simp] theorem tick_energy (s : State) : (s.tick).energy = s.energy := rfl
@[simp] theorem tick_ports (s : State) : (s.tick).ports = s.ports := rfl
@[simp] theorem tick_routes (s : State) : (s.tick).routes = s.routes := rfl
@[simp] theorem tick_devnum (s : State) : (s.tick).devnum = s.devnum := rfl
@[simp] theorem tick_devnumSet (s : State) : (s.tick).devnumSet = s.devnumSet := rfl
@[simp] theorem tick_fwstat (s : State) : (s.tick).fwstat = s.fwstat := rfl
@[simp] theorem tick_fwReady (s : State) : (s.tick).fwReady = s.fwReady := rfl
@[simp] theorem tick_fwContent (s : State) : (s.tick).fwContent = s.fwContent := rfl
@[simp] theorem tick_fwVersion (s : State) : (s.tick).fwVersion = s.fwVersion := rfl
@[simp] theorem tick_stage (s : State) : (s.tick).stage = s.stage := rfl
@[simp] theorem tick_calcl (s : State) : (s.tick).calcl = s.calcl := rfl
@[simp] theorem tick_cut (s : State) : (s.tick).cut = s.cut := rfl
@[simp] theorem tick_advise (s : State) : (s.tick).advise = s.advise := rfl
@[simp] theorem tick_nret (s : State) : (s.tick).nret = s.nret := rfl
@[simp] theorem tick_sessions (s : State) : (s.tick).sessions = s.sessions := rfl
@[simp] theorem tick_nextSession (s : State) : (s.tick).nextSession = s.nextSession := rfl
@[simp] theorem tick_spdm (s : State) : (s.tick).spdm = s.spdm := rfl
@[simp] theorem tick_reply (s : State) : (s.tick).reply = s.reply := rfl
@[simp] theorem tick_sent (s : State) : (s.tick).sent = s.sent := rfl
@[simp] theorem tick_inbound (s : State) : (s.tick).inbound = s.inbound := rfl

/-! ### draw -/

@[simp] theorem draw_turn (s : State) : (s.draw).turn = s.turn := rfl
@[simp] theorem draw_agenda (s : State) : (s.draw).agenda = s.agenda := rfl
@[simp] theorem draw_order (s : State) : (s.draw).order = s.order := rfl
@[simp] theorem draw_nominal (s : State) : (s.draw).nominal = s.nominal := rfl
@[simp] theorem draw_draws (s : State) : (s.draw).draws = s.draws + 1 := rfl
@[simp] theorem draw_cores (s : State) : (s.draw).cores = s.cores := rfl
@[simp] theorem draw_shafts (s : State) : (s.draw).shafts = s.shafts := rfl
@[simp] theorem draw_clusters (s : State) : (s.draw).clusters = s.clusters := rfl
@[simp] theorem draw_hbm (s : State) : (s.draw).hbm = s.hbm := rfl
@[simp] theorem draw_hbmKey (s : State) : (s.draw).hbmKey = s.hbmKey := rfl
@[simp] theorem draw_poison (s : State) : (s.draw).poison = s.poison := rfl
@[simp] theorem draw_host (s : State) : (s.draw).host = s.host := rfl
@[simp] theorem draw_hostBad (s : State) : (s.draw).hostBad = s.hostBad := rfl
@[simp] theorem draw_records (s : State) : (s.draw).records = s.records := rfl
@[simp] theorem draw_dispen (s : State) : (s.draw).dispen = s.dispen := rfl
@[simp] theorem draw_recsel (s : State) : (s.draw).recsel = s.recsel := rfl
@[simp] theorem draw_reccmdErr (s : State) : (s.draw).reccmdErr = s.reccmdErr := rfl
@[simp] theorem draw_fqBase (s : State) : (s.draw).fqBase = s.fqBase := rfl
@[simp] theorem draw_fqLog (s : State) : (s.draw).fqLog = s.fqLog := rfl
@[simp] theorem draw_fqInten (s : State) : (s.draw).fqInten = s.fqInten := rfl
@[simp] theorem draw_fqHead (s : State) : (s.draw).fqHead = s.fqHead := rfl
@[simp] theorem draw_fqTail (s : State) : (s.draw).fqTail = s.fqTail := rfl
@[simp] theorem draw_reports (s : State) : (s.draw).reports = s.reports := rfl
@[simp] theorem draw_msix (s : State) : (s.draw).msix = s.msix := rfl
@[simp] theorem draw_completions (s : State) : (s.draw).completions = s.completions := rfl
@[simp] theorem draw_dphasers (s : State) : (s.draw).dphasers = s.dphasers := rfl
@[simp] theorem draw_pcbs (s : State) : (s.draw).pcbs = s.pcbs := rfl
@[simp] theorem draw_saves (s : State) : (s.draw).saves = s.saves := rfl
@[simp] theorem draw_keys (s : State) : (s.draw).keys = s.keys := rfl
@[simp] theorem draw_resetDue (s : State) : (s.draw).resetDue = s.resetDue := rfl
@[simp] theorem draw_romDigest (s : State) : (s.draw).romDigest = s.romDigest := rfl
@[simp] theorem draw_fwDigest (s : State) : (s.draw).fwDigest = s.fwDigest := rfl
@[simp] theorem draw_idDigest (s : State) : (s.draw).idDigest = s.idDigest := rfl
@[simp] theorem draw_measured (s : State) : (s.draw).measured = s.measured := rfl
@[simp] theorem draw_invPart (s : State) : (s.draw).invPart = s.invPart := rfl
@[simp] theorem draw_invAll (s : State) : (s.draw).invAll = s.invAll := rfl
@[simp] theorem draw_invSize (s : State) : (s.draw).invSize = s.invSize := rfl
@[simp] theorem draw_invBusy (s : State) : (s.draw).invBusy = s.invBusy := rfl
@[simp] theorem draw_invAt (s : State) : (s.draw).invAt = s.invAt := rfl
@[simp] theorem draw_invVa (s : State) : (s.draw).invVa = s.invVa := rfl
@[simp] theorem draw_windows (s : State) : (s.draw).windows = s.windows := rfl
@[simp] theorem draw_logCount (s : State) : (s.draw).logCount = s.logCount := rfl
@[simp] theorem draw_log (s : State) : (s.draw).log = s.log := rfl
@[simp] theorem draw_psust (s : State) : (s.draw).psust = s.psust := rfl
@[simp] theorem draw_psprint (s : State) : (s.draw).psprint = s.psprint := rfl
@[simp] theorem draw_spen (s : State) : (s.draw).spen = s.spen := rfl
@[simp] theorem draw_pavg (s : State) : (s.draw).pavg = s.pavg := rfl
@[simp] theorem draw_lrErr (s : State) : (s.draw).lrErr = s.lrErr := rfl
@[simp] theorem draw_energy (s : State) : (s.draw).energy = s.energy := rfl
@[simp] theorem draw_ports (s : State) : (s.draw).ports = s.ports := rfl
@[simp] theorem draw_routes (s : State) : (s.draw).routes = s.routes := rfl
@[simp] theorem draw_devnum (s : State) : (s.draw).devnum = s.devnum := rfl
@[simp] theorem draw_devnumSet (s : State) : (s.draw).devnumSet = s.devnumSet := rfl
@[simp] theorem draw_fwstat (s : State) : (s.draw).fwstat = s.fwstat := rfl
@[simp] theorem draw_fwReady (s : State) : (s.draw).fwReady = s.fwReady := rfl
@[simp] theorem draw_fwContent (s : State) : (s.draw).fwContent = s.fwContent := rfl
@[simp] theorem draw_fwVersion (s : State) : (s.draw).fwVersion = s.fwVersion := rfl
@[simp] theorem draw_stage (s : State) : (s.draw).stage = s.stage := rfl
@[simp] theorem draw_calcl (s : State) : (s.draw).calcl = s.calcl := rfl
@[simp] theorem draw_cut (s : State) : (s.draw).cut = s.cut := rfl
@[simp] theorem draw_advise (s : State) : (s.draw).advise = s.advise := rfl
@[simp] theorem draw_nret (s : State) : (s.draw).nret = s.nret := rfl
@[simp] theorem draw_sessions (s : State) : (s.draw).sessions = s.sessions := rfl
@[simp] theorem draw_nextSession (s : State) : (s.draw).nextSession = s.nextSession := rfl
@[simp] theorem draw_spdm (s : State) : (s.draw).spdm = s.spdm := rfl
@[simp] theorem draw_reply (s : State) : (s.draw).reply = s.reply := rfl
@[simp] theorem draw_sent (s : State) : (s.draw).sent = s.sent := rfl
@[simp] theorem draw_inbound (s : State) : (s.draw).inbound = s.inbound := rfl

/-! ### later -/

@[simp] theorem later_turn (s : State) (e : Instr) : (s.later e).turn = s.turn := rfl
@[simp] theorem later_agenda (s : State) (e : Instr) : (s.later e).agenda = s.agenda ++ [e] := rfl
@[simp] theorem later_order (s : State) (e : Instr) : (s.later e).order = s.order := rfl
@[simp] theorem later_nominal (s : State) (e : Instr) : (s.later e).nominal = s.nominal := rfl
@[simp] theorem later_draws (s : State) (e : Instr) : (s.later e).draws = s.draws := rfl
@[simp] theorem later_cores (s : State) (e : Instr) : (s.later e).cores = s.cores := rfl
@[simp] theorem later_shafts (s : State) (e : Instr) : (s.later e).shafts = s.shafts := rfl
@[simp] theorem later_clusters (s : State) (e : Instr) : (s.later e).clusters = s.clusters := rfl
@[simp] theorem later_hbm (s : State) (e : Instr) : (s.later e).hbm = s.hbm := rfl
@[simp] theorem later_hbmKey (s : State) (e : Instr) : (s.later e).hbmKey = s.hbmKey := rfl
@[simp] theorem later_poison (s : State) (e : Instr) : (s.later e).poison = s.poison := rfl
@[simp] theorem later_host (s : State) (e : Instr) : (s.later e).host = s.host := rfl
@[simp] theorem later_hostBad (s : State) (e : Instr) : (s.later e).hostBad = s.hostBad := rfl
@[simp] theorem later_records (s : State) (e : Instr) : (s.later e).records = s.records := rfl
@[simp] theorem later_dispen (s : State) (e : Instr) : (s.later e).dispen = s.dispen := rfl
@[simp] theorem later_recsel (s : State) (e : Instr) : (s.later e).recsel = s.recsel := rfl
@[simp] theorem later_reccmdErr (s : State) (e : Instr) : (s.later e).reccmdErr = s.reccmdErr := rfl
@[simp] theorem later_fqBase (s : State) (e : Instr) : (s.later e).fqBase = s.fqBase := rfl
@[simp] theorem later_fqLog (s : State) (e : Instr) : (s.later e).fqLog = s.fqLog := rfl
@[simp] theorem later_fqInten (s : State) (e : Instr) : (s.later e).fqInten = s.fqInten := rfl
@[simp] theorem later_fqHead (s : State) (e : Instr) : (s.later e).fqHead = s.fqHead := rfl
@[simp] theorem later_fqTail (s : State) (e : Instr) : (s.later e).fqTail = s.fqTail := rfl
@[simp] theorem later_reports (s : State) (e : Instr) : (s.later e).reports = s.reports := rfl
@[simp] theorem later_msix (s : State) (e : Instr) : (s.later e).msix = s.msix := rfl
@[simp] theorem later_completions (s : State) (e : Instr) : (s.later e).completions = s.completions := rfl
@[simp] theorem later_dphasers (s : State) (e : Instr) : (s.later e).dphasers = s.dphasers := rfl
@[simp] theorem later_pcbs (s : State) (e : Instr) : (s.later e).pcbs = s.pcbs := rfl
@[simp] theorem later_saves (s : State) (e : Instr) : (s.later e).saves = s.saves := rfl
@[simp] theorem later_keys (s : State) (e : Instr) : (s.later e).keys = s.keys := rfl
@[simp] theorem later_resetDue (s : State) (e : Instr) : (s.later e).resetDue = s.resetDue := rfl
@[simp] theorem later_romDigest (s : State) (e : Instr) : (s.later e).romDigest = s.romDigest := rfl
@[simp] theorem later_fwDigest (s : State) (e : Instr) : (s.later e).fwDigest = s.fwDigest := rfl
@[simp] theorem later_idDigest (s : State) (e : Instr) : (s.later e).idDigest = s.idDigest := rfl
@[simp] theorem later_measured (s : State) (e : Instr) : (s.later e).measured = s.measured := rfl
@[simp] theorem later_invPart (s : State) (e : Instr) : (s.later e).invPart = s.invPart := rfl
@[simp] theorem later_invAll (s : State) (e : Instr) : (s.later e).invAll = s.invAll := rfl
@[simp] theorem later_invSize (s : State) (e : Instr) : (s.later e).invSize = s.invSize := rfl
@[simp] theorem later_invBusy (s : State) (e : Instr) : (s.later e).invBusy = s.invBusy := rfl
@[simp] theorem later_invAt (s : State) (e : Instr) : (s.later e).invAt = s.invAt := rfl
@[simp] theorem later_invVa (s : State) (e : Instr) : (s.later e).invVa = s.invVa := rfl
@[simp] theorem later_windows (s : State) (e : Instr) : (s.later e).windows = s.windows := rfl
@[simp] theorem later_logCount (s : State) (e : Instr) : (s.later e).logCount = s.logCount := rfl
@[simp] theorem later_log (s : State) (e : Instr) : (s.later e).log = s.log := rfl
@[simp] theorem later_psust (s : State) (e : Instr) : (s.later e).psust = s.psust := rfl
@[simp] theorem later_psprint (s : State) (e : Instr) : (s.later e).psprint = s.psprint := rfl
@[simp] theorem later_spen (s : State) (e : Instr) : (s.later e).spen = s.spen := rfl
@[simp] theorem later_pavg (s : State) (e : Instr) : (s.later e).pavg = s.pavg := rfl
@[simp] theorem later_lrErr (s : State) (e : Instr) : (s.later e).lrErr = s.lrErr := rfl
@[simp] theorem later_energy (s : State) (e : Instr) : (s.later e).energy = s.energy := rfl
@[simp] theorem later_ports (s : State) (e : Instr) : (s.later e).ports = s.ports := rfl
@[simp] theorem later_routes (s : State) (e : Instr) : (s.later e).routes = s.routes := rfl
@[simp] theorem later_devnum (s : State) (e : Instr) : (s.later e).devnum = s.devnum := rfl
@[simp] theorem later_devnumSet (s : State) (e : Instr) : (s.later e).devnumSet = s.devnumSet := rfl
@[simp] theorem later_fwstat (s : State) (e : Instr) : (s.later e).fwstat = s.fwstat := rfl
@[simp] theorem later_fwReady (s : State) (e : Instr) : (s.later e).fwReady = s.fwReady := rfl
@[simp] theorem later_fwContent (s : State) (e : Instr) : (s.later e).fwContent = s.fwContent := rfl
@[simp] theorem later_fwVersion (s : State) (e : Instr) : (s.later e).fwVersion = s.fwVersion := rfl
@[simp] theorem later_stage (s : State) (e : Instr) : (s.later e).stage = s.stage := rfl
@[simp] theorem later_calcl (s : State) (e : Instr) : (s.later e).calcl = s.calcl := rfl
@[simp] theorem later_cut (s : State) (e : Instr) : (s.later e).cut = s.cut := rfl
@[simp] theorem later_advise (s : State) (e : Instr) : (s.later e).advise = s.advise := rfl
@[simp] theorem later_nret (s : State) (e : Instr) : (s.later e).nret = s.nret := rfl
@[simp] theorem later_sessions (s : State) (e : Instr) : (s.later e).sessions = s.sessions := rfl
@[simp] theorem later_nextSession (s : State) (e : Instr) : (s.later e).nextSession = s.nextSession := rfl
@[simp] theorem later_spdm (s : State) (e : Instr) : (s.later e).spdm = s.spdm := rfl
@[simp] theorem later_reply (s : State) (e : Instr) : (s.later e).reply = s.reply := rfl
@[simp] theorem later_sent (s : State) (e : Instr) : (s.later e).sent = s.sent := rfl
@[simp] theorem later_inbound (s : State) (e : Instr) : (s.later e).inbound = s.inbound := rfl

/-! ### A core with a stream replaced -/

@[simp] theorem setStream_halted (c : Core) (st : StreamId) (x : Stream) : (c.setStream st x).halted = c.halted := by cases st <;> rfl
@[simp] theorem setStream_halting (c : Core) (st : StreamId) (x : Stream) : (c.setStream st x).halting = c.halting := by cases st <;> rfl
@[simp] theorem setStream_point (c : Core) (st : StreamId) (x : Stream) : (c.setStream st x).point = c.point := by cases st <;> rfl
@[simp] theorem setStream_priv (c : Core) (st : StreamId) (x : Stream) : (c.setStream st x).priv = c.priv := by cases st <;> rfl
@[simp] theorem setStream_hregs (c : Core) (st : StreamId) (x : Stream) : (c.setStream st x).hregs = c.hregs := by cases st <;> rfl
@[simp] theorem setStream_hstack (c : Core) (st : StreamId) (x : Stream) : (c.setStream st x).hstack = c.hstack := by cases st <;> rfl
@[simp] theorem setStream_hpos (c : Core) (st : StreamId) (x : Stream) : (c.setStream st x).hpos = c.hpos := by cases st <;> rfl
@[simp] theorem setStream_trapcause (c : Core) (st : StreamId) (x : Stream) : (c.setStream st x).trapcause = c.trapcause := by cases st <;> rfl
@[simp] theorem setStream_trapinfo (c : Core) (st : StreamId) (x : Stream) : (c.setStream st x).trapinfo = c.trapinfo := by cases st <;> rfl
@[simp] theorem setStream_trappc (c : Core) (st : StreamId) (x : Stream) : (c.setStream st x).trappc = c.trappc := by cases st <;> rfl
@[simp] theorem setStream_trapseq (c : Core) (st : StreamId) (x : Stream) : (c.setStream st x).trapseq = c.trapseq := by cases st <;> rfl
@[simp] theorem setStream_cycle (c : Core) (st : StreamId) (x : Stream) : (c.setStream st x).cycle = c.cycle := by cases st <;> rfl
@[simp] theorem setStream_raised (c : Core) (st : StreamId) (x : Stream) : (c.setStream st x).raised = c.raised := by cases st <;> rfl
@[simp] theorem setStream_stop (c : Core) (st : StreamId) (x : Stream) : (c.setStream st x).stop = c.stop := by cases st <;> rfl
@[simp] theorem setStream_suspended (c : Core) (st : StreamId) (x : Stream) : (c.setStream st x).suspended = c.suspended := by cases st <;> rfl
@[simp] theorem setStream_committed (c : Core) (st : StreamId) (x : Stream) : (c.setStream st x).committed = c.committed := by cases st <;> rfl
@[simp] theorem setStream_trapvec (c : Core) (st : StreamId) (x : Stream) : (c.setStream st x).trapvec = c.trapvec := by cases st <;> rfl
@[simp] theorem setStream_wdog (c : Core) (st : StreamId) (x : Stream) : (c.setStream st x).wdog = c.wdog := by cases st <;> rfl
@[simp] theorem setStream_lampmax (c : Core) (st : StreamId) (x : Stream) : (c.setStream st x).lampmax = c.lampmax := by cases st <;> rfl
@[simp] theorem setStream_partition (c : Core) (st : StreamId) (x : Stream) : (c.setStream st x).partition = c.partition := by cases st <;> rfl
@[simp] theorem setStream_tround (c : Core) (st : StreamId) (x : Stream) : (c.setStream st x).tround = c.tround := by cases st <;> rfl
@[simp] theorem setStream_tsrb (c : Core) (st : StreamId) (x : Stream) : (c.setStream st x).tsrb = c.tsrb := by cases st <;> rfl
@[simp] theorem setStream_tclamp (c : Core) (st : StreamId) (x : Stream) : (c.setStream st x).tclamp = c.tclamp := by cases st <;> rfl
@[simp] theorem setStream_ticks (c : Core) (st : StreamId) (x : Stream) : (c.setStream st x).ticks = c.ticks := by cases st <;> rfl
@[simp] theorem setStream_events (c : Core) (st : StreamId) (x : Stream) : (c.setStream st x).events = c.events := by cases st <;> rfl
@[simp] theorem setStream_gen (c : Core) (st : StreamId) (x : Stream) : (c.setStream st x).gen = c.gen := by cases st <;> rfl
@[simp] theorem setStream_ntiles (c : Core) (st : StreamId) (x : Stream) : (c.setStream st x).ntiles = c.ntiles := by cases st <;> rfl
@[simp] theorem setStream_tiles (c : Core) (st : StreamId) (x : Stream) : (c.setStream st x).tiles = c.tiles := by cases st <;> rfl
@[simp] theorem setStream_m0 (c : Core) (st : StreamId) (x : Stream) : (c.setStream st x).m0 = c.m0 := by cases st <;> rfl
@[simp] theorem setStream_m1 (c : Core) (st : StreamId) (x : Stream) : (c.setStream st x).m1 = c.m1 := by cases st <;> rfl
@[simp] theorem setStream_vec (c : Core) (st : StreamId) (x : Stream) : (c.setStream st x).vec = c.vec := by cases st <;> rfl
@[simp] theorem setStream_mat (c : Core) (st : StreamId) (x : Stream) : (c.setStream st x).mat = c.mat := by cases st <;> rfl
@[simp] theorem setStream_ap (c : Core) (st : StreamId) (x : Stream) : (c.setStream st x).ap = c.ap := by cases st <;> rfl
@[simp] theorem setStream_arr (c : Core) (st : StreamId) (x : Stream) : (c.setStream st x).arr = c.arr := by cases st <;> rfl
@[simp] theorem setStream_copies (c : Core) (st : StreamId) (x : Stream) : (c.setStream st x).copies = c.copies := by cases st <;> rfl
@[simp] theorem setStream_ordinal (c : Core) (st : StreamId) (x : Stream) : (c.setStream st x).ordinal = c.ordinal := by cases st <;> rfl
@[simp] theorem setStream_carve (c : Core) (st : StreamId) (x : Stream) : (c.setStream st x).carve = c.carve := by cases st <;> rfl
@[simp] theorem setStream_xsw (c : Core) (st : StreamId) (x : Stream) : (c.setStream st x).xsw = c.xsw := by cases st <;> rfl
@[simp] theorem setStream_scratch (c : Core) (st : StreamId) (x : Stream) : (c.setStream st x).scratch = c.scratch := by cases st <;> rfl
@[simp] theorem setStream_resized (c : Core) (st : StreamId) (x : Stream) : (c.setStream st x).resized = c.resized := by cases st <;> rfl
@[simp] theorem setStream_scratchFull (c : Core) (st : StreamId) (x : Stream) : (c.setStream st x).scratchFull = c.scratchFull := by cases st <;> rfl
@[simp] theorem setStream_cache (c : Core) (st : StreamId) (x : Stream) : (c.setStream st x).cache = c.cache := by cases st <;> rfl
@[simp] theorem setStream_panels (c : Core) (st : StreamId) (x : Stream) : (c.setStream st x).panels = c.panels := by cases st <;> rfl
@[simp] theorem setStream_spares (c : Core) (st : StreamId) (x : Stream) : (c.setStream st x).spares = c.spares := by cases st <;> rfl
@[simp] theorem setStream_failed (c : Core) (st : StreamId) (x : Stream) : (c.setStream st x).failed = c.failed := by cases st <;> rfl
@[simp] theorem setStream_trapBad (c : Core) (st : StreamId) (x : Stream) : (c.setStream st x).trapBad = c.trapBad := by cases st <;> rfl
@[simp] theorem setStream_scratchBad (c : Core) (st : StreamId) (x : Stream) : (c.setStream st x).scratchBad = c.scratchBad := by cases st <;> rfl
@[simp] theorem setStream_frozen (c : Core) (st : StreamId) (x : Stream) : (c.setStream st x).frozen = c.frozen := by cases st <;> rfl
@[simp] theorem setStream_lampWant (c : Core) (st : StreamId) (x : Stream) : (c.setStream st x).lampWant = c.lampWant := by cases st <;> rfl

end Sys2Proof.Machine
end

