-- ==== Sys2Proof/Laws/Ops.lean ====
section
/-! SUPPORT. What the shared operations over cores, registers, positions and waits do, each said once. -/

namespace Sys2Proof.Machine

/-! ### Reading a part back -/

@[simp] theorem core_setCore_self (s : State) (k : Nat) (c : Core) : (s.setCore k c).core k = c := by
  simp [State.core, State.setCore]

@[simp] theorem setCore_setCore (s : State) (k : Nat) (c d : Core) : (s.setCore k c).setCore k d = s.setCore k d := by
  simp [State.setCore]

theorem core_setCore_ne (s : State) {k j : Nat} (c : Core) (h : j ≠ k) : (s.setCore k c).core j = s.core j := by
  simp [State.core, State.setCore, tget_tput_ne _ _ _ h]

theorem core_setCore (s : State) (k j : Nat) (c : Core) : (s.setCore k c).core j = if j = k then c else s.core j := by
  simp [State.core, State.setCore, tget_tput]

@[simp] theorem shaft_setShaft_self (s : State) (n : Nat) (h : Shaft) : (s.setShaft n h).shaft n = h := by
  simp [State.shaft, State.setShaft]

theorem shaft_setShaft (s : State) (n m : Nat) (h : Shaft) : (s.setShaft n h).shaft m = if m = n then h else s.shaft m := by
  simp [State.shaft, State.setShaft, tget_tput]

@[simp] theorem cluster_setCluster_self (s : State) (n : Nat) (c : Cluster) : (s.setCluster n c).cluster n = c := by
  simp [State.cluster, State.setCluster]

theorem cluster_setCluster (s : State) (n m : Nat) (c : Cluster) :
    (s.setCluster n c).cluster m = if m = n then c else s.cluster m := by simp [State.cluster, State.setCluster, tget_tput]

@[simp] theorem record_setRecord_self (s : State) (n : Nat) (x : Record) : (s.setRecord n x).record n = x := by
  simp [State.record, State.setRecord]

theorem record_setRecord (s : State) (n m : Nat) (x : Record) :
    (s.setRecord n x).record m = if m = n then x else s.record m := by simp [State.record, State.setRecord, tget_tput]

@[simp] theorem pcb_setPcb_self (s : State) (p : Nat) (b : Pcb) : (s.setPcb p b).pcb p = b := by
  simp [State.pcb, State.setPcb]

theorem pcb_setPcb (s : State) (p q : Nat) (b : Pcb) : (s.setPcb p b).pcb q = if q = p then b else s.pcb q := by
  simp [State.pcb, State.setPcb, tget_tput]

/-! ### One part replaced leaves the others -/

@[simp] theorem shaft_setCore (s : State) (k n : Nat) (c : Core) : (s.setCore k c).shaft n = s.shaft n := rfl
@[simp] theorem cluster_setCore (s : State) (k n : Nat) (c : Core) : (s.setCore k c).cluster n = s.cluster n := rfl
@[simp] theorem record_setCore (s : State) (k n : Nat) (c : Core) : (s.setCore k c).record n = s.record n := rfl
@[simp] theorem pcb_setCore (s : State) (k n : Nat) (c : Core) : (s.setCore k c).pcb n = s.pcb n := rfl
@[simp] theorem core_setShaft (s : State) (k n : Nat) (h : Shaft) : (s.setShaft n h).core k = s.core k := rfl
@[simp] theorem cluster_setShaft (s : State) (k n : Nat) (h : Shaft) : (s.setShaft n h).cluster k = s.cluster k := rfl
@[simp] theorem record_setShaft (s : State) (k n : Nat) (h : Shaft) : (s.setShaft n h).record k = s.record k := rfl
@[simp] theorem pcb_setShaft (s : State) (k n : Nat) (h : Shaft) : (s.setShaft n h).pcb k = s.pcb k := rfl
@[simp] theorem core_setCluster (s : State) (k n : Nat) (c : Cluster) : (s.setCluster n c).core k = s.core k := rfl
@[simp] theorem shaft_setCluster (s : State) (k n : Nat) (c : Cluster) : (s.setCluster n c).shaft k = s.shaft k := rfl
@[simp] theorem record_setCluster (s : State) (k n : Nat) (c : Cluster) : (s.setCluster n c).record k = s.record k := rfl
@[simp] theorem pcb_setCluster (s : State) (k n : Nat) (c : Cluster) : (s.setCluster n c).pcb k = s.pcb k := rfl
@[simp] theorem core_setRecord (s : State) (k n : Nat) (x : Record) : (s.setRecord n x).core k = s.core k := rfl
@[simp] theorem shaft_setRecord (s : State) (k n : Nat) (x : Record) : (s.setRecord n x).shaft k = s.shaft k := rfl
@[simp] theorem cluster_setRecord (s : State) (k n : Nat) (x : Record) : (s.setRecord n x).cluster k = s.cluster k := rfl
@[simp] theorem pcb_setRecord (s : State) (k n : Nat) (x : Record) : (s.setRecord n x).pcb k = s.pcb k := rfl
@[simp] theorem core_setPcb (s : State) (k n : Nat) (b : Pcb) : (s.setPcb n b).core k = s.core k := rfl
@[simp] theorem shaft_setPcb (s : State) (k n : Nat) (b : Pcb) : (s.setPcb n b).shaft k = s.shaft k := rfl
@[simp] theorem cluster_setPcb (s : State) (k n : Nat) (b : Pcb) : (s.setPcb n b).cluster k = s.cluster k := rfl
@[simp] theorem record_setPcb (s : State) (k n : Nat) (b : Pcb) : (s.setPcb n b).record k = s.record k := rfl
@[simp] theorem core_hbmPut (s : State) (k key pa : Nat) (bs : List Byte) : (s.hbmPut key pa bs).core k = s.core k := rfl
@[simp] theorem core_tick (s : State) (k : Nat) : s.tick.core k = s.core k := rfl
@[simp] theorem core_draw (s : State) (k : Nat) : s.draw.core k = s.core k := rfl
@[simp] theorem core_later (s : State) (k : Nat) (e : Instr) : (s.later e).core k = s.core k := rfl

/-! ### Streams -/

@[simp] theorem stream_setStream_self (c : Core) (st : StreamId) (x : Stream) : (c.setStream st x).stream st = x := by
  cases st <;> rfl

theorem stream_setStream_ne (c : Core) {st st' : StreamId} (x : Stream) (h : st' ≠ st) :
    (c.setStream st x).stream st' = c.stream st' := by
  cases st <;> cases st' <;> first | rfl | exact absurd rfl h

@[simp] theorem onHandler_setStream (c : Core) (st st' : StreamId) (x : Stream) :
    (c.setStream st x).onHandler st' = c.onHandler st' := by simp [Core.onHandler]

/-! ### Registers (R56) -/

@[simp] theorem bankGet_zero (b : Vector Word 32) : bankGet b 0 = 0 := rfl

@[simp] theorem bankSet_zero (b : Vector Word 32) (v : Word) : bankSet b 0 v = b := rfl

/-- What a bank reads after a write. -/
theorem bankGet_bankSet (b : Vector Word 32) (d r : Reg) (v : Word) :
    bankGet (bankSet b d v) r = if r = 0 then 0 else if r = d then v else bankGet b r := by
  unfold bankGet bankSet
  by_cases hr : r = 0
  · simp only [if_pos hr]
  · by_cases hd : d = 0
    · have : r ≠ d := fun e => hr (e.trans hd)
      simp only [if_neg hr, if_pos hd, if_neg this]
    · by_cases h : r = d
      · subst r; simp only [if_neg hd, if_true, Vector.getElem_set_self]
      · have : d.toNat ≠ r.toNat := fun e => h (BitVec.eq_of_toNat_eq e.symm)
        simp only [if_neg hr, if_neg hd, if_neg h, Vector.getElem_set_ne _ _ this]

/-- The bank of a stream after a register of it is written. -/
theorem bank_setReg (c : Core) (st : StreamId) (r : Reg) (v : Word) :
    (c.setReg st r v).bank st = bankSet (c.bank st) r v := by
  unfold Core.setReg Core.bank
  by_cases h : c.onHandler st = true
  · have : Core.onHandler { c with hregs := bankSet c.hregs r v } st = true := h
    simp [h, this]
  · simp only [h, Bool.false_eq_true, if_false]
    simp [h]

@[simp] theorem reg_zero (s : State) (k : Nat) (st : StreamId) : s.reg k st 0 = 0 := rfl

/-- The registers of a stream after one is written (R56). -/
theorem reg_setReg (s : State) (k : Nat) (st : StreamId) (d r : Reg) (v : Word) :
    (s.setReg k st d v).reg k st r = if r = 0 then 0 else if r = d then v else s.reg k st r := by
  simp [State.reg, State.setReg, bank_setReg, bankGet_bankSet]

/-- Another core's registers stay. -/
theorem reg_setReg_core (s : State) {k j : Nat} (st st' : StreamId) (d r : Reg) (v : Word) (h : j ≠ k) :
    (s.setReg k st d v).reg j st' r = s.reg j st' r := by
  simp [State.reg, State.setReg, core_setCore_ne _ _ h]

/-! ### Retiring -/

/-- Retiring leaves the mode. -/
@[simp] theorem priv_retireTo (c : Core) (st : StreamId) (p : Pos) : (c.retireTo st p).priv = c.priv := by
  unfold Core.retireTo Core.setPos
  dsimp only
  split <;> simp

/-- Retiring leaves the registers of the stream's bank. -/
theorem bank_retireTo (c : Core) (st : StreamId) (p : Pos) : (c.retireTo st p).bank st = c.bank st := by
  have ho : (c.retireTo st p).onHandler st = c.onHandler st := by simp [Core.onHandler]
  unfold Core.bank
  rw [ho]
  unfold Core.retireTo Core.setPos
  by_cases h : c.onHandler st = true
  · simp only [onHandler_setStream, h, if_true, setStream_hregs]
  · simp only [onHandler_setStream, h, Bool.false_eq_true, if_false]
    cases st <;> rfl

@[simp] theorem reg_retire (s : State) (k : Nat) (st : StreamId) (len : Nat) (r : Reg) :
    (s.retire k st len).reg k st r = s.reg k st r := by simp [State.reg, State.retire, bank_retireTo]

/-- The position after retiring (R78). -/
theorem pos_retireTo (c : Core) (st : StreamId) (p : Pos) : (c.retireTo st p).pos st = p := by
  have ho : (c.retireTo st p).onHandler st = c.onHandler st := by simp [Core.onHandler]
  unfold Core.pos
  rw [ho]
  unfold Core.retireTo Core.setPos
  by_cases h : c.onHandler st = true
  · simp only [onHandler_setStream, h, if_true]
  · simp only [onHandler_setStream, h, Bool.false_eq_true, if_false]
    cases st <;> rfl

@[simp] theorem pos_retire (s : State) (k : Nat) (st : StreamId) (len : Nat) :
    (s.retire k st len).pos k st = (s.pos k st).after len := by simp [State.pos, State.retire, pos_retireTo]

/-- Retiring counts the instruction and leaves no wait (R175). -/
theorem stream_retireTo (c : Core) (st : StreamId) (p : Pos) :
    ((c.retireTo st p).stream st).seq = (c.stream st).seq + 1 ∧ ((c.retireTo st p).stream st).wait = none := by
  unfold Core.retireTo Core.setPos
  by_cases h : c.onHandler st = true
  · simp only [onHandler_setStream, h, if_true]
    cases st <;> exact ⟨rfl, rfl⟩
  · simp only [onHandler_setStream, h, Bool.false_eq_true, if_false]
    cases st <;> exact ⟨rfl, rfl⟩

/-- A position set leaves the core's other streams. -/
theorem stream_setPos_ne (c : Core) {st st' : StreamId} (p : Pos) (h : st' ≠ st) :
    (c.setPos st p).stream st' = c.stream st' := by
  unfold Core.setPos
  by_cases ho : c.onHandler st = true
  · rw [if_pos ho]; cases st' <;> rfl
  · rw [if_neg ho]; exact stream_setStream_ne c _ h

/-- Retiring leaves the core's other streams. -/
theorem stream_retireTo_ne (c : Core) {st st' : StreamId} (p : Pos) (h : st' ≠ st) :
    (c.retireTo st p).stream st' = c.stream st' := by
  have e : ∀ (d : Core) (n : Nat), Core.stream { d with ticks := n } st' = d.stream st' := fun d n => by cases st' <;> rfl
  unfold Core.retireTo
  exact (e _ _).trans ((stream_setPos_ne _ p h).trans (stream_setStream_ne c _ h))

/-! ### Waiting -/

/-- Waiting leaves the registers. -/
@[simp] theorem reg_waitOn (s : State) (k : Nat) (st : StreamId) (w : WaitOn) (r : Reg) :
    (s.waitOn k st w).reg k st r = s.reg k st r := by
  unfold State.waitOn
  dsimp only
  split
  · split
    · simp only [State.reg, core_setCore_self]; rfl
    · simp only [State.reg, core_tick, core_setCore_self]
      simp only [Core.bank]; cases st <;> rfl
  · simp only [State.reg, core_tick, core_setCore_self]
    simp only [Core.bank]; cases st <;> rfl

/-- Waiting leaves the position. -/
@[simp] theorem pos_waitOn (s : State) (k : Nat) (st : StreamId) (w : WaitOn) : (s.waitOn k st w).pos k st = s.pos k st := by
  unfold State.waitOn
  dsimp only
  split
  · split
    · simp only [State.pos, core_setCore_self]; rfl
    · simp only [State.pos, core_tick, core_setCore_self]
      simp only [Core.pos]; cases st <;> rfl
  · simp only [State.pos, core_tick, core_setCore_self]
    simp only [Core.pos]; cases st <;> rfl

/-- What a stream waits on once it waits (R138). -/
theorem wait_waitOn (s : State) (k : Nat) (st : StreamId) (w : WaitOn) :
    ∃ n, ((s.waitOn k st w).stream k st).wait = some (w, n) := by
  unfold State.waitOn
  dsimp only
  split
  · rename_i w' n h
    split
    · subst w'
      refine ⟨n, ?_⟩
      simp only [State.stream, core_setCore_self]
      exact h
    · refine ⟨s.order, ?_⟩
      simp only [State.stream, core_tick, core_setCore_self]
      cases st <;> rfl
  · refine ⟨s.order, ?_⟩
    simp only [State.stream, core_tick, core_setCore_self]
    cases st <;> rfl

/-! ### The stream that acts -/

/-- An instruction of the stream whose turn it is. -/
theorem onTurn_some {s : State} {k : Nat} {st : StreamId} (h : s.turn = some (k, st)) (f : Nat → StreamId → State) :
    onTurn s f = .next (f k st) := by simp [onTurn, h]

/-- With no stream to act for, an instruction has no effect (log 1). -/
theorem onTurn_none {s : State} (h : s.turn = none) (f : Nat → StreamId → State) : onTurn s f = .next s := by simp [onTurn, h]

/-- An instruction of a stream always answers a next state. -/
theorem onTurn_next (s : State) (f : Nat → StreamId → State) : ∃ t, onTurn s f = .next t := by
  unfold onTurn; split <;> exact ⟨_, rfl⟩

/-- A register is pending only where the list names it. -/
theorem anyPending_nil (s : State) (k : Nat) (st : StreamId) : s.anyPending k st [] = false := rfl

/-- No register of a list is pending where none of a longer one is. -/
theorem anyPending_mono {s : State} {k : Nat} {st : StreamId} {l l' : List Reg} (h : ∀ r ∈ l, r ∈ l')
    (hp : s.anyPending k st l' = false) : s.anyPending k st l = false := by
  simp only [State.anyPending, List.any_eq_false] at hp ⊢
  exact fun r hr => hp r (h r hr)

/-! ### Traps -/

/-- With no trap raised, none is entered. -/
theorem enterTrap_none {s : State} {k : Nat} (h : (s.core k).raised = none) : s.enterTrap k = s := by
  simp [State.enterTrap, h]

/-- A trap is entered where its core has acknowledged (R364). -/
theorem enterTrap_some {s : State} {k : Nat} {t : TrapRec} (h : (s.core k).raised = some t) (ha : (s.core k).acknowledged = true)
    (hp : (s.core k).priv = false) (hs : (s.core k).stop = false) (hf : (s.core k).failed = false)
    (hb : (s.core k).trapBad = false) (hv : (s.core k).trapvec ≠ 0) :
    s.enterTrap k = s.setCore k ((s.core k).enterHandler t) := by
  simp only [State.enterTrap, h, ha, hp, hs, hf, hb, Bool.not_false, Bool.and_true, if_true, if_neg hv]
  rfl

/-- A trap waits while its core has not acknowledged, is privileged, is asked to stop or has failed (R364, R369, R372). -/
theorem enterTrap_waits {s : State} {k : Nat}
    (h : (s.core k).acknowledged = false ∨ (s.core k).priv = true ∨ (s.core k).stop = true ∨ (s.core k).failed = true) :
    s.enterTrap k = s := by
  unfold State.enterTrap
  dsimp only
  split
  · rfl
  · obtain h | h | h | h := h <;> simp [h]

/-- The handler's first state (R364). -/
theorem enterHandler_fields (c : Core) (t : TrapRec) :
    (c.enterHandler t).priv = true ∧ (c.enterHandler t).raised = none ∧ (c.enterHandler t).hstack = [] ∧
      (c.enterHandler t).trapinfo = t.info ∧ (c.enterHandler t).trapseq = t.seq ∧
      (c.enterHandler t).trappc = packPos t.hdr t.off ∧ (c.enterHandler t).hpos = Pos.enter c.trapvec.toNat ∧
      (∀ st, (c.enterHandler t).stream st = c.stream st) :=
  ⟨rfl, rfl, rfl, rfl, rfl, rfl, rfl, fun st => by cases st <;> rfl⟩

end Sys2Proof.Machine
end

