-- ==== Sys2Proof/Laws/Memory.lean ====
section
/-! SUPPORT. Memory: every operation over it keeps the canonical form, and what each read gives after a write. -/

namespace Sys2Proof.Machine

/-! ### The canonical form -/

/-- Only the four tables of memory matter to the canonical form. -/
theorem memoryWf_congr {s t : State} (h1 : t.hbm = s.hbm) (h2 : t.host = s.host) (h3 : t.hbmKey = s.hbmKey)
    (h4 : t.poison = s.poison) (h : s.memoryWf) : t.memoryWf := by
  unfold State.memoryWf at *
  rw [h1, h2, h3, h4]; exact h

/-- Reset memory lists nothing. -/
theorem reset_memoryWf : State.reset.memoryWf := ⟨nil_wf 0, nil_wf 0, nil_wf 0, nil_wf false⟩

theorem setCore_memoryWf {s : State} (k : Nat) (c : Core) (h : s.memoryWf) : (s.setCore k c).memoryWf := h

theorem setShaft_memoryWf {s : State} (n : Nat) (x : Shaft) (h : s.memoryWf) : (s.setShaft n x).memoryWf := h

theorem setCluster_memoryWf {s : State} (n : Nat) (x : Cluster) (h : s.memoryWf) : (s.setCluster n x).memoryWf := h

theorem setRecord_memoryWf {s : State} (n : Nat) (x : Record) (h : s.memoryWf) : (s.setRecord n x).memoryWf := h

theorem setPcb_memoryWf {s : State} (n : Nat) (x : Pcb) (h : s.memoryWf) : (s.setPcb n x).memoryWf := h

theorem retire_memoryWf {s : State} (k : Nat) (st : StreamId) (n : Nat) (h : s.memoryWf) : (s.retire k st n).memoryWf := h

theorem setReg_memoryWf {s : State} (k : Nat) (st : StreamId) (r : Reg) (v : Word) (h : s.memoryWf) :
    (s.setReg k st r v).memoryWf := h

theorem waitOn_memoryWf {s : State} (k : Nat) (st : StreamId) (w : WaitOn) (h : s.memoryWf) : (s.waitOn k st w).memoryWf := by
  unfold State.waitOn
  dsimp only
  split
  · split <;> exact h
  · exact h

/-- A draw of a free value and a charge keep the form. -/
theorem draw_memoryWf {s : State} (h : s.memoryWf) : s.draw.memoryWf := h

theorem chargeMove_memoryWf {s : State} (part die : Nat) (ls : List Loc) (h : s.memoryWf) : (s.chargeMove part die ls).memoryWf := by
  unfold State.chargeMove
  dsimp only
  split <;> exact h

theorem chargeLocs_memoryWf {s : State} (k : Nat) (ls : List Loc) (h : s.memoryWf) : (s.chargeLocs k ls).memoryWf :=
  chargeMove_memoryWf _ _ _ h

/-- The lines of a run rise. -/
theorem linesOf_rising (pa n : Nat) : (linesOf pa n).Pairwise (· < ·) := by
  unfold linesOf
  split
  · exact .nil
  · exact List.pairwise_map.2 (List.pairwise_lt_range.imp fun h => by omega)

/-- A line belongs to a run of bytes exactly where one of its bytes does. -/
theorem mem_linesOf (pa n l : Nat) : l ∈ linesOf pa n ↔ n ≠ 0 ∧ pa / 64 ≤ l ∧ l ≤ (pa + n - 1) / 64 := by
  unfold linesOf
  split
  · simp; omega
  · simp only [List.mem_map, List.mem_range]
    constructor
    · rintro ⟨i, hi, rfl⟩; omega
    · intro h; exact ⟨l - pa / 64, by omega, by omega⟩

/-- What a line becomes as bytes, numbered from its first address. -/
theorem mem_relined {s : State} {key : Nat} {lines : List Nat} {p : Nat × Byte} :
    p ∈ s.relined key lines ↔ p.1 / 64 ∈ lines ∧ s.lineClear key (p.1 / 64) = false ∧ p.2 = Config.garbled key p.1 := by
  unfold State.relined
  rw [List.mem_flatMap]
  constructor
  · rintro ⟨l, hl, hp⟩
    rw [List.mem_filter] at hl
    have hb := mem_numbered hp
    simp only [List.length_map, List.length_range] at hb
    have hq : p.1 / 64 = l := by omega
    have hf := tfind_of_mem (numbered_rising ..) hp
    rw [tfind_numbered, if_pos hb.1, List.getElem?_map, List.getElem?_range (by omega)] at hf
    simp only [Option.map_some, Option.some.injEq] at hf
    refine ⟨hq ▸ hl.1, hq ▸ by simpa using hl.2, hf.symm.trans ?_⟩
    rw [show 64 * l + (p.1 - 64 * l) = p.1 by omega]
  · rintro ⟨hl, hc, hv⟩
    refine ⟨p.1 / 64, List.mem_filter.2 ⟨hl, by simp [hc]⟩, ?_⟩
    have hf : tfind (numbered (64 * (p.1 / 64)) ((List.range 64).map fun i => Config.garbled key (64 * (p.1 / 64) + i))) p.1 =
        some p.2 := by
      rw [tfind_numbered, if_pos (by omega), List.getElem?_map, List.getElem?_range (by omega), hv]
      simp only [Option.map_some, Option.some.injEq]
      rw [show 64 * (p.1 / 64) + (p.1 - 64 * (p.1 / 64)) = p.1 by omega]
    exact tfind_mem hf

/-- The bytes of relined lines rise. -/
theorem relined_rising (s : State) (key : Nat) {lines : List Nat} (h : lines.Pairwise (· < ·)) :
    (s.relined key lines).Pairwise fun a b => a.1 < b.1 := by
  unfold State.relined
  rw [List.pairwise_flatMap]
  refine ⟨fun l _ => numbered_rising .., (h.filter _).imp fun hlt x hx y hy => ?_⟩
  have h1 := mem_numbered hx
  have h2 := mem_numbered hy
  simp only [List.length_map, List.length_range] at h1 h2
  omega

/-- What relined lines list. -/
theorem tfind_relined (s : State) (key : Nat) {lines : List Nat} (h : lines.Pairwise (· < ·)) (a : Nat) :
    tfind (s.relined key lines) a = if a / 64 ∈ lines ∧ s.lineClear key (a / 64) = false then some (Config.garbled key a) else none := by
  split
  · rename_i hm
    exact tfind_of_mem (relined_rising s key h) (mem_relined.2 ⟨hm.1, hm.2, rfl⟩)
  · rename_i hm
    cases hf : tfind (s.relined key lines) a with
    | none => rfl
    | some v =>
      have := mem_relined.1 (tfind_mem hf)
      exact absurd ⟨this.1, this.2.1⟩ hm

/-- HBM written under a key keeps the form. -/
theorem hbmPut_memoryWf {s : State} (key pa : Nat) (bs : List Byte) (h : s.memoryWf) : (s.hbmPut key pa bs).memoryWf :=
  ⟨tmerge_wf (numbered_rising ..) (tmerge_wf (relined_rising s key (linesOf_rising ..)) h.1), h.2.1,
    tmerge_wf (numbered_rising ..) h.2.2.1, tmerge_wf (numbered_rising ..) h.2.2.2⟩

/-- A byte written at its home keeps the form. -/
theorem homeSet_memoryWf {s : State} (key : Nat) (l : Loc) (b : Byte) (h : s.memoryWf) : (s.homeSet key l b).memoryWf := by
  cases l with
  | scratch k o => exact h
  | cluster c o => exact h
  | hbm pa => exact hbmPut_memoryWf key pa [b] h
  | direct pa => exact hbmPut_memoryWf key pa [b] h
  | host a => exact ⟨h.1, tset_wf a b h.2.1, h.2.2⟩

/-- Bytes written at their homes keep the form. -/
theorem homeSetAll_memoryWf {s : State} (key : Nat) (l : List (Loc × Byte)) (h : s.memoryWf) : (s.homeSetAll key l).memoryWf := by
  induction l generalizing s with
  | nil => exact h
  | cons x r ih => exact ih (homeSet_memoryWf key x.1 x.2 h)

/-- A core's store of a byte at its home keeps the form. -/
theorem coreThrough_memoryWf {s : State} (k : Nat) (l : Loc) (b : Byte) (h : s.memoryWf) : (s.coreThrough k l b).memoryWf := by
  have h1 := homeSet_memoryWf (s.keyOf k) l b h
  cases l <;> exact h1

/-- A core's store of a byte keeps the form. -/
theorem coreSet_memoryWf {s : State} (k : Nat) (alloc : Bool) (bind : Nat) (l : Loc) (b : Byte) (h : s.memoryWf) :
    (s.coreSet k alloc bind l b).memoryWf := by
  unfold State.coreSet
  dsimp only
  split
  · split
    · exact h
    · exact coreThrough_memoryWf k _ b h
  · exact coreThrough_memoryWf k _ b h

/-- A core's store keeps the form. -/
theorem coreSetAll_memoryWf {s : State} (k : Nat) (alloc : Bool) (bind : Nat) (l : List (Loc × Byte)) (h : s.memoryWf) :
    (s.coreSetAll k alloc bind l).memoryWf := by
  induction l generalizing s with
  | nil => exact h
  | cons x r ih => exact ih (coreSet_memoryWf k alloc bind x.1 x.2 h)

/-- A core's store at the home keeps the form. -/
theorem coreThroughAll_memoryWf {s : State} (k : Nat) (l : List (Loc × Byte)) (h : s.memoryWf) : (s.coreThroughAll k l).memoryWf := by
  induction l generalizing s with
  | nil => exact h
  | cons x r ih => exact ih (coreThrough_memoryWf k x.1 x.2 h)

/-- Dirty bytes written back keep the form. -/
theorem writeBack_memoryWf {s : State} (k key : Nat) (l : List (Nat × CacheByte)) (h : s.memoryWf) :
    (s.writeBack k key l).memoryWf := by
  induction l generalizing s with
  | nil => exact h
  | cons x r ih =>
    unfold State.writeBack
    split
    · exact ih (chargeLocs_memoryWf k _ (hbmPut_memoryWf key x.1 [x.2.value] h))
    · exact ih h

/-- A reset that is due keeps the form. -/
theorem resetIf_memoryWf {s : State} (k : Nat) (b : Bool) (h : s.memoryWf) : (s.resetIf k b).memoryWf := by
  unfold State.resetIf
  split <;> exact h

/-- A flush keeps the form. -/
theorem flush_memoryWf {s : State} (k : Nat) (p : Nat → CacheByte → Bool) (h : s.memoryWf) : (s.flush k p).memoryWf :=
  setCore_memoryWf k _ (writeBack_memoryWf k (s.keyOf k) _ (resetIf_memoryWf k _ h))

/-- A discard keeps the form. -/
theorem discard_memoryWf {s : State} (k : Nat) (p : Nat → CacheByte → Bool) (h : s.memoryWf) : (s.discard k p).memoryWf := h

/-- Synchronising sectors keeps the form. -/
theorem syncSectors_memoryWf {s : State} (k : Nat) (ls : List Loc) (h : s.memoryWf) : (s.syncSectors k ls).memoryWf :=
  discard_memoryWf k _ (flush_memoryWf k _ h)

/-- Refilling a sector keeps the form. -/
theorem refill_memoryWf {s : State} (k : Nat) (ls : List Loc) (n : Nat) (h : s.memoryWf) : (s.refill k ls n).memoryWf :=
  setCore_memoryWf k _ (chargeLocs_memoryWf k _ (resetIf_memoryWf k _ h))

/-- Refilling sectors keeps the form. -/
theorem refillAll_memoryWf {s : State} (k : Nat) (ls : List Loc) (l : List Nat) (h : s.memoryWf) : (s.refillAll k ls l).memoryWf := by
  induction l generalizing s with
  | nil => exact h
  | cons n r ih => exact ih (refill_memoryWf k ls n h)

/-- Refreshing sectors keeps the form. -/
theorem refreshSectors_memoryWf {s : State} (k : Nat) (ls : List Loc) (h : s.memoryWf) : (s.refreshSectors k ls).memoryWf :=
  refillAll_memoryWf k ls _ (flush_memoryWf k _ h)

/-- Dropping the copies behind a system-atomic read keeps the form. -/
theorem seenDirect_memoryWf {s : State} (k : Nat) (ls : List Loc) (h : s.memoryWf) : (s.seenDirect k ls).memoryWf := by
  unfold State.seenDirect
  dsimp only
  split <;> exact h

/-- Emptying a core cache keeps the form. -/
theorem emptyCache_memoryWf {s : State} (k : Nat) (h : s.memoryWf) : (s.emptyCache k).memoryWf :=
  discard_memoryWf k _ (flush_memoryWf k _ h)

/-- Filling a core cache keeps the form. -/
theorem fillCache_memoryWf {s : State} (k : Nat) (alloc : Bool) (l : List Loc) (h : s.memoryWf) : (s.fillCache k alloc l).memoryWf := by
  unfold State.fillCache
  split
  · exact refillAll_memoryWf k l _ h
  · exact h

/-- Full/empty bits keep the form. -/
theorem setWordFull_memoryWf {s : State} (l : Loc) (b : Bool) (h : s.memoryWf) : (s.setWordFull l b).memoryWf := by
  cases l <;> exact h

/-- A charge keeps the form. -/
theorem chargeTag_memoryWf {s : State} (tag fj : Nat) (h : s.memoryWf) : (s.chargeTag tag fj).memoryWf := h

/-- A charge for the on-die network keeps the form. -/
theorem chargeNet_memoryWf {s : State} (tag bytes : Nat) (h : s.memoryWf) : (s.chargeNet tag bytes).memoryWf := h

/-- The charge for a fault report keeps the form. -/
theorem chargeReport_memoryWf {s : State} (h : s.memoryWf) : s.chargeReport.memoryWf := by
  unfold State.chargeReport
  exact chargeNet_memoryWf _ _ (chargeTag_memoryWf _ _ h)

/-- A fault report keeps the form. -/
theorem report_memoryWf {s : State} (part : Nat) (r : Report) (h : s.memoryWf) : (s.report part r).memoryWf := by
  unfold State.report
  split
  · exact chargeReport_memoryWf (hbmPut_memoryWf 0 _ _ h)
  · exact h

/-- A failed record keeps the form. -/
theorem faultRecord_memoryWf {s : State} (r detail core va serial : Nat) (h : s.memoryWf) :
    (s.faultRecord r detail core va serial).memoryWf := by
  unfold State.faultRecord
  dsimp only
  split
  · exact h
  · exact report_memoryWf _ _ h

/-- A charged walk keeps the form. -/
theorem chargedWalk_memoryWf {s : State} (cl part va : Nat) (h : s.memoryWf) : (s.chargedWalk cl part va).memoryWf := by
  unfold State.chargedWalk
  split
  · exact h
  · exact chargeMove_memoryWf _ _ _ h

/-- A translation keeps the form. -/
theorem translate_memoryWf {s : State} (cl part va : Nat) (h : s.memoryWf) : (s.translate cl part va).1.memoryWf := by
  unfold State.translate
  have h1 := chargedWalk_memoryWf cl part va h
  split
  · exact h
  · split <;> exact h1

/-- Testing the rights of a page keeps the form. -/
theorem pageCheck_memoryWf {s : State} (cl va : Nat) (need : Need) (t : Trans) (h : s.memoryWf) :
    (s.pageCheck cl va need t).1.memoryWf := by
  unfold State.pageCheck
  split <;> exact h

/-- Finding the bytes of a virtual access keeps the form. -/
theorem locateVirtual_memoryWf {s : State} (cl part va n : Nat) (need : Need) (h : s.memoryWf) :
    (s.locateVirtual cl part va n need).1.memoryWf := by
  unfold State.locateVirtual
  have h1 := translate_memoryWf cl part va h
  split
  · rename_i e; rw [e] at h1; exact h1
  · rename_i s1 t e
    rw [e] at h1
    have hp := pageCheck_memoryWf cl va need t h1
    split
    · split <;> (rename_i e2; rw [e2] at hp; exact hp)
    · dsimp only
      have h2 := translate_memoryWf (s := s1) cl part ((t.base + t.size) % 2 ^ 57) h1
      split
      · rename_i e2; rw [e2] at h2; exact h2
      · rename_i s2 u e2
        rw [e2] at h2
        have h3 := pageCheck_memoryWf cl va need t h2
        split
        · rename_i e3; rw [e3] at h3; exact h3
        · rename_i s3 e3
          rw [e3] at h3
          have h4 := pageCheck_memoryWf cl (t.base + t.size) need u h3
          split <;> (rename_i e4; rw [e4] at h4; exact h4)

/-- Looking at a partition's space 4 keeps the form. -/
theorem peekVirtual_memoryWf {s : State} (cl part va n : Nat) (h : s.memoryWf) : (s.peekVirtual cl part va n).1.memoryWf := by
  unfold State.peekVirtual
  have h1 := locateVirtual_memoryWf cl part va n ⟨true, false, false, false, none⟩ h
  split <;> (rename_i e; rw [e] at h1; exact h1)

/-- Reading a partition's space 4 with its errors keeps the form. -/
theorem readChecked_memoryWf {s : State} (cl part va n : Nat) (h : s.memoryWf) : (s.readChecked cl part va n).1.memoryWf := by
  unfold State.readChecked
  have h1 := locateVirtual_memoryWf cl part va n ⟨true, false, false, false, none⟩ h
  split
  · rename_i e; rw [e] at h1; exact h1
  · rename_i e; rw [e] at h1; exact chargeMove_memoryWf _ _ _ h1

/-- Reading a partition's space 4 keeps the form. -/
theorem readVirtual_memoryWf {s : State} (cl part va n : Nat) (h : s.memoryWf) : (s.readVirtual cl part va n).1.memoryWf := by
  unfold State.readVirtual
  have h1 := readChecked_memoryWf cl part va n h
  split <;> (rename_i e; rw [e] at h1; exact h1)

/-- Writing a partition's space 4 keeps the form. -/
theorem writeVirtual_memoryWf {s : State} (cl part va : Nat) (bs : List Byte) (h : s.memoryWf) :
    (s.writeVirtual cl part va bs).1.memoryWf := by
  unfold State.writeVirtual
  have h1 := locateVirtual_memoryWf cl part va bs.length ⟨false, true, false, false, none⟩ h
  split
  · rename_i e; rw [e] at h1; exact h1
  · rename_i e; rw [e] at h1; exact homeSetAll_memoryWf _ _ (chargeMove_memoryWf _ _ _ h1)

/-! ### Reading after writing -/

/-- In a table in canonical form a key is found exactly where it does not read as an unlisted one. -/
theorem tfind_eq_none_iff {α : Type} [DecidableEq α] {d : α} {t : Tbl α} (h : TableWf d t) (k : Nat) :
    tfind t k = none ↔ tget d t k = d := by
  constructor
  · intro hn; simp [tget, hn]
  · intro hg
    cases hf : tfind t k with
    | none => rfl
    | some v =>
      have hv : v = d := by simpa [tget, hf] using hg
      exact absurd hv (h.2 _ (tfind_mem hf))

/-- What HBM holds after bytes are put there under a key: the bytes; elsewhere in a line that was not clear under the key,
what the key read there; else what stood there. -/
theorem tget_hbmPut {s : State} (key pa : Nat) (bs : List Byte) (h : s.memoryWf) (a : Nat) :
    tget 0 (s.hbmPut key pa bs).hbm a = (tfind (numbered pa bs) a).getD
      (if a / 64 ∈ linesOf pa bs.length ∧ s.lineClear key (a / 64) = false then Config.garbled key a else tget 0 s.hbm a) := by
  refine (tget_tmerge (numbered_rising ..) (tmerge_wf (relined_rising s key (linesOf_rising ..)) h.1) a).trans ?_
  rw [tget_tmerge (relined_rising s key (linesOf_rising ..)) h.1, tfind_relined s key (linesOf_rising ..)]
  split <;> rfl

/-- The key of a line after bytes are put in HBM. -/
theorem tget_hbmPut_key {s : State} (key pa : Nat) (bs : List Byte) (h : s.memoryWf) (l : Nat) :
    tget 0 (s.hbmPut key pa bs).hbmKey l = if l ∈ linesOf pa bs.length then key + 1 else tget 0 s.hbmKey l := by
  refine (tget_tmerge (numbered_rising ..) h.2.2.1 l).trans ?_
  rw [tfind_numbered]
  have hm := mem_linesOf pa bs.length l
  have hlen : (linesOf pa bs.length).length = if bs.length = 0 then 0 else (pa + bs.length - 1) / 64 - pa / 64 + 1 := by
    unfold linesOf; split <;> simp
  by_cases h1 : l ∈ linesOf pa bs.length
  · have h2 := hm.1 h1
    rw [if_neg h2.1] at hlen
    rw [if_pos h1, if_pos h2.2.1, List.getElem?_map, List.getElem?_eq_getElem (by omega)]
    rfl
  · rw [if_neg h1]
    by_cases h3 : pa / 64 ≤ l
    · have hnone : (linesOf pa bs.length)[l - pa / 64]? = none := by
        rw [List.getElem?_eq_none]
        by_cases h0 : bs.length = 0
        · rw [hlen, if_pos h0]; omega
        · rw [hlen, if_neg h0]
          have := mt hm.2 h1
          omega
      rw [if_pos h3, List.getElem?_map, hnone]; rfl
    · rw [if_neg h3]; rfl

/-- What the key reads at any address of HBM after bytes are put there under it: the bytes, and elsewhere what it read
before (R399). -/
theorem hbmGet_hbmPut {s : State} (key pa : Nat) (bs : List Byte) (h : s.memoryWf) (a : Nat) :
    (s.hbmPut key pa bs).hbmGet key a = (tfind (numbered pa bs) a).getD (s.hbmGet key a) := by
  have hb : tfind (numbered pa bs) a ≠ none → a / 64 ∈ linesOf pa bs.length := by
    intro hf
    obtain ⟨v, hv⟩ := Option.ne_none_iff_exists'.1 hf
    have hm := mem_numbered (tfind_mem hv)
    exact (mem_linesOf ..).2 ⟨by omega, by omega, by omega⟩
  unfold State.hbmGet
  by_cases hl : a / 64 ∈ linesOf pa bs.length
  · have hc : (s.hbmPut key pa bs).lineClear key (a / 64) = true := by
      unfold State.lineClear
      rw [tget_hbmPut_key key pa bs h, if_pos hl]; simp
    rw [hc, if_pos rfl, tget_hbmPut key pa bs h]
    cases hcl : s.lineClear key (a / 64) <;> simp [hl]
  · have hn : tfind (numbered pa bs) a = none := by
      by_contra hf; exact hl (hb hf)
    have hc : (s.hbmPut key pa bs).lineClear key (a / 64) = s.lineClear key (a / 64) := by
      unfold State.lineClear
      rw [tget_hbmPut_key key pa bs h, if_neg hl]
    rw [hc, tget_hbmPut key pa bs h, hn]
    simp [hl]

/-- Under any key, lines that no byte was put into read as before (R399). -/
theorem hbmGet_hbmPut_line {s : State} (key key' pa : Nat) (bs : List Byte) (h : s.memoryWf) {a : Nat}
    (hl : a / 64 ∉ linesOf pa bs.length) : (s.hbmPut key pa bs).hbmGet key' a = s.hbmGet key' a := by
  have hn : tfind (numbered pa bs) a = none := by
    by_contra hf
    obtain ⟨v, hv⟩ := Option.ne_none_iff_exists'.1 hf
    have hm := mem_numbered (tfind_mem hv)
    exact hl ((mem_linesOf ..).2 ⟨by omega, by omega, by omega⟩)
  unfold State.hbmGet State.lineClear
  rw [tget_hbmPut_key key pa bs h, if_neg hl, tget_hbmPut key pa bs h, hn]
  simp [hl]

/-- The byte written at a home reads back under its key. -/
theorem homeGet_homeSet_self {s : State} (key : Nat) (l : Loc) (b : Byte) (h : s.memoryWf) :
    (s.homeSet key l b).homeGet key l = b := by
  cases l with
  | scratch k o => simp [State.homeSet, State.homeGet]
  | cluster c o => simp [State.homeSet, State.homeGet]
  | hbm pa => exact (hbmGet_hbmPut key pa [b] h pa).trans (by simp [numbered, tfind])
  | direct pa => exact (hbmGet_hbmPut key pa [b] h pa).trans (by simp [numbered, tfind])
  | host a => simp [State.homeSet, State.homeGet]

/-- Put into HBM leaves the other homes. -/
theorem hbm_apart {s : State} (key key' pa a : Nat) (b : Byte) (h : s.memoryWf) (hne : a ≠ pa) (hk : key' = key ∨ a / 64 ≠ pa / 64) :
    (s.hbmPut key pa [b]).hbmGet key' a = s.hbmGet key' a := by
  by_cases hl : a / 64 = pa / 64
  · obtain rfl : key' = key := hk.resolve_right fun hh => hh hl
    rw [hbmGet_hbmPut key' pa [b] h]; simp [numbered, tfind, hne]
  · exact hbmGet_hbmPut_line key key' pa [b] h (by rw [mem_linesOf]; simp; omega)

/-- A byte written at a home leaves every other location: of HBM, all that the same key reads, and all that any key reads
of the other lines (R399). -/
theorem homeGet_homeSet_ne {s : State} (key key' : Nat) {l l' : Loc} (b : Byte) (h : s.memoryWf) (hne : l'.home ≠ l.home)
    (hk : key' = key ∨ l'.line ≠ l.line) : (s.homeSet key l b).homeGet key' l' = s.homeGet key' l' := by
  cases l with
  | scratch k o =>
    cases l' with
    | scratch k' o' =>
      simp only [State.homeSet, State.homeGet, core_setCore]
      split
      · subst k'
        have : o' ≠ o := fun e => hne (by rw [e])
        exact tget_tset_ne _ _ _ this
      · rfl
    | _ => rfl
  | cluster c o =>
    cases l' with
    | cluster c' o' =>
      simp only [State.homeSet, State.homeGet, cluster_setCluster]
      split
      · subst c'
        have : o' ≠ o := fun e => hne (by rw [e])
        exact tget_tset_ne _ _ _ this
      · rfl
    | _ => rfl
  | hbm pa =>
    cases l' with
    | hbm a | direct a =>
      exact hbm_apart key key' pa a b h (fun e => hne (by simp [Loc.home, e])) (hk.imp_right fun hh e => hh (by simp [Loc.line, e]))
    | _ => rfl
  | direct pa =>
    cases l' with
    | hbm a | direct a =>
      exact hbm_apart key key' pa a b h (fun e => hne (by simp [Loc.home, e])) (hk.imp_right fun hh e => hh (by simp [Loc.line, e]))
    | _ => rfl
  | host a =>
    cases l' with
    | host a' =>
      have : a' ≠ a := fun e => hne (by rw [e])
      exact tget_tset_ne _ _ _ this
    | _ => rfl

/-- Bytes written leave every location outside them, as their key reads it; under other keys, the other lines. -/
theorem homeGet_homeSetAll_out {s : State} (key key' : Nat) (ls : List (Loc × Byte)) {l : Loc} (h : s.memoryWf)
    (hl : ∀ p ∈ ls, p.1.home ≠ l.home) (hk : key' = key ∨ ∀ p ∈ ls, p.1.line ≠ l.line) :
    (s.homeSetAll key ls).homeGet key' l = s.homeGet key' l := by
  induction ls generalizing s with
  | nil => rfl
  | cons x r ih =>
    have h1 := homeSet_memoryWf key x.1 x.2 h
    refine (ih h1 (fun p hp => hl p (by simp [hp])) (hk.imp_right fun hh p hp => hh p (by simp [hp]))).trans ?_
    exact homeGet_homeSet_ne key key' x.2 h (hl x (by simp)).symm (hk.imp_right fun hh => (hh x (by simp)).symm)

/-- Bytes written at distinct homes read back. -/
theorem homeGet_homeSetAll_mem {s : State} (key : Nat) (ls : List (Loc × Byte)) (h : s.memoryWf)
    (hn : (ls.map fun p => p.1.home).Nodup) : ∀ p ∈ ls, (s.homeSetAll key ls).homeGet key p.1 = p.2 := by
  induction ls generalizing s with
  | nil => simp
  | cons x r ih =>
    have h1 := homeSet_memoryWf key x.1 x.2 h
    rw [List.map_cons, List.nodup_cons] at hn
    intro p hp
    obtain rfl | hp := List.mem_cons.1 hp
    · refine (homeGet_homeSetAll_out key key r h1 (fun q hq e => ?_) (.inl rfl)).trans (homeGet_homeSet_self key p.1 p.2 h)
      exact hn.1 (e ▸ List.mem_map_of_mem (f := fun p : Loc × Byte => p.1.home) hq)
    · exact ih h1 hn.2 p hp

end Sys2Proof.Machine
end

