-- ==== Sys2Proof/Laws/Instructions.lean ====
section
/-! SUPPORT. The shared forms of instructions: what each answers, in each of its cases. -/

namespace Sys2Proof.Machine

/-! ### Scalar instructions -/

/-- A scalar instruction none of whose registers is pending writes its register and retires. -/
theorem scalar_acts {s : State} {k : Nat} {st : StreamId} (len : Nat) (reads : List Reg) (d : Reg) (f : (Reg → Word) → Word)
    (ht : s.turn = some (k, st)) (hp : s.anyPending k st (d :: reads) = false) :
    scalar len reads d f s = .next ((s.setReg k st d (f (s.reg k st))).retire k st len) := by
  simp [scalar, onTurn, ht, hp]

/-- One of whose registers is pending stalls (R166). -/
theorem scalar_stalls {s : State} {k : Nat} {st : StreamId} (len : Nat) (reads : List Reg) (d : Reg) (f : (Reg → Word) → Word)
    (ht : s.turn = some (k, st)) (hp : s.anyPending k st (d :: reads) = true) :
    scalar len reads d f s = .next (s.waitOn k st .register) := by
  simp [scalar, onTurn, ht, hp]

/-- Everything a scalar instruction can do. -/
theorem scalar_cases {s t : State} {len : Nat} {reads : List Reg} {d : Reg} {f : (Reg → Word) → Word}
    (h : scalar len reads d f s = .next t) :
    s.turn = none ∧ t = s ∨ ∃ k st, s.turn = some (k, st) ∧
      (s.anyPending k st (d :: reads) = true ∧ t = s.waitOn k st .register ∨
        s.anyPending k st (d :: reads) = false ∧ t = (s.setReg k st d (f (s.reg k st))).retire k st len) := by
  unfold scalar onTurn at h
  split at h
  · rename_i ht; cases h; exact .inl ⟨ht, rfl⟩
  · rename_i k st ht
    refine .inr ⟨k, st, ht, ?_⟩
    cases hp : s.anyPending k st (d :: reads) <;> simp [hp] at h
    · exact .inr ⟨rfl, h.symm⟩
    · exact .inl ⟨rfl, h.symm⟩

/-! ### Branches -/

/-- A branch that is not taken goes on (R173). -/
theorem branch_passes {s : State} {k : Nat} {st : StreamId} {i : Instr} {a b : Reg} {o : BitVec 12} {cond : Word → Word → Bool}
    (ht : s.turn = some (k, st)) (hp : s.anyPending k st [a, b] = false) (hc : cond (s.reg k st a) (s.reg k st b) = false) :
    branch i a b o cond s = .next (s.retire k st 2) := by simp [branch, onTurn, ht, hp, hc]

/-- A branch that is taken goes to its header (R173). -/
theorem branch_goes {s : State} {k : Nat} {st : StreamId} {i : Instr} {a b : Reg} {o : BitVec 12} {cond : Word → Word → Bool}
    (ht : s.turn = some (k, st)) (hp : s.anyPending k st [a, b] = false) (hc : cond (s.reg k st a) (s.reg k st b) = true)
    (hb : s.badTarget k (target (s.pos k st).hdr o) = none) :
    branch i a b o cond s = .next (s.retireTo k st (target (s.pos k st).hdr o)) := by
  simp [branch, onTurn, ht, hp, hc, State.goto, hb]

/-- A transfer to what is no header raises cause 0x03, reason 6 (R79). -/
theorem goto_refused {s : State} {k : Nat} {st : StreamId} {i : Instr} {hdr w : Nat} {f : State → State}
    (hb : s.badTarget k hdr = some w) : s.goto k st i hdr f = s.raise k st 0x03 (malformed 6 (instrWord i).toNat) := by
  simp [State.goto, hb]

/-- A transfer to a header. -/
theorem goto_goes {s : State} {k : Nat} {st : StreamId} {i : Instr} {hdr : Nat} {f : State → State}
    (hb : s.badTarget k hdr = none) : s.goto k st i hdr f = (f s).retireTo k st hdr := by simp [State.goto, hb]

/-! ### Loads, stores and atomics -/

/-- A load, once its registers are free and its counter has room, does what its checks find (R176, R177, R180). -/
theorem load_acts {s : State} {k : Nat} {st : StreamId} (n : Nat) (sg : Bool) (d c : Reg) (l : BitVec 8) (r : BitVec 2)
    (ht : s.turn = some (k, st)) (hp : s.anyPending k st [d, c] = false) (hr : (s.stream k st).room true = true) :
    load n sg d c l r s = .next
      (match s.find k l.toNat (s.reg k st c) ⟨n, true, false, decide (n = 8), false, false, false⟩ with
      | (s1, .trap cause info) => s1.raise k st cause info
      | (s1, .outside y) => (s1.setReg k st d (loadValue n sg (leNat (y.fillBytes n)))).retire k st 2
      | (s1, .fifo y b) =>
        ((s1.pushAccess k st ⟨.fifoLoad b d, [], 0, y.base, r, y.bind, false, (s.pos k st).hdr, (s.pos k st).off, 0⟩).retire
          k st 2).later (.fifoServe k st)
      | (s1, .bytes y addr ls) =>
        ((s1.pushAccess k st ⟨.load d sg, ls, 0, addr, r, y.bind, y.allocates, (s.pos k st).hdr, (s.pos k st).off, 0⟩).retire
          k st 2).later (.loadReturn k st)) := by
  simp only [load, onTurn, ht, hp, hr, Bool.false_eq_true, if_false]
  rcases s.find k l.toNat (s.reg k st c) ⟨n, true, false, decide (n = 8), false, false, false⟩ with ⟨s1, f⟩
  cases f <;> rfl

/-- A store alike. -/
theorem store_acts {s : State} {k : Nat} {st : StreamId} (n : Nat) (d c : Reg) (l : BitVec 8) (r : BitVec 2)
    (ht : s.turn = some (k, st)) (hp : s.anyPending k st [d, c] = false) (hr : (s.stream k st).room false = true) :
    store n d c l r s = .next
      (match s.find k l.toNat (s.reg k st c) ⟨n, false, true, decide (n = 8), false, false, false⟩ with
      | (s1, .trap cause info) => s1.raise k st cause info
      | (s1, .outside y) => (s1.drops k y.tid 1).retire k st 2
      | (s1, .fifo y b) =>
        ((s1.pushAccess k st ⟨.fifoStore b, [], s.reg k st d, y.base, r, y.bind, false, (s.pos k st).hdr, (s.pos k st).off,
          0⟩).retire k st 2).later (.fifoServe k st)
      | (s1, .bytes y addr ls) =>
        ((s1.pushAccess k st ⟨.store, ls, s.reg k st d, addr, r, y.bind, y.allocates, (s.pos k st).hdr, (s.pos k st).off, 0⟩).retire
          k st 2).later (.storePerform k st)) := by
  simp only [store, onTurn, ht, hp, hr, Bool.false_eq_true, if_false]
  rcases s.find k l.toNat (s.reg k st c) ⟨n, false, true, decide (n = 8), false, false, false⟩ with ⟨s1, f⟩
  cases f <;> rfl

/-- An atomic alike (R184). -/
theorem atomic_acts {s : State} {k : Nat} {st : StreamId} (op : AtOp) (d c : Reg) (l : BitVec 8) (r : BitVec 2) (ret : Bool)
    (ht : s.turn = some (k, st)) (hp : s.anyPending k st (if op = .cas then [d, d + 1, c] else [d, c]) = false)
    (hr : (s.stream k st).room ret = true) {s1 : State} {y : Layout} {addr : Nat} {ls : List Loc}
    (hf : s.find k l.toNat (s.reg k st c) ⟨op.width, true, true, false, false, true, op.pcie⟩ = (s1, .bytes y addr ls)) :
    atomic op d c l r ret s = .next
      (((s1.pushAccess k st ⟨.atomic op (s.reg k st (d + 1)) (if ret then some d else none), ls, s.reg k st d, addr, r,
        y.bind, y.allocates, (s.pos k st).hdr, (s.pos k st).off, 0⟩).retire k st 2).later (.atomicPerform k st)) := by
  simp only [atomic, onTurn, ht, hp, hr, hf, reduceCtorEq, Bool.false_eq_true, if_false]

/-- The checks of an access keep the memory's form. -/
theorem find_memoryWf {s : State} (k num : Nat) (coords : Word) (q : Ask) (h : s.memoryWf) : (s.find k num coords q).1.memoryWf := by
  unfold State.find
  split
  · exact h
  · rename_i l _
    split
    · exact h
    · split
      · exact h
      · dsimp only
        split
        · exact h
        · split
          · exact h
          · split
            · split <;> exact h
            · have hl : ∀ need, (s.locate k l.space (l.address (l.index coords [])) q.width need).1.memoryWf := by
                intro need
                unfold State.locate
                dsimp only
                split
                · exact h
                · exact h
                · exact h
                · exact locateVirtual_memoryWf _ _ _ _ _ h
              have h1 := hl ⟨q.rd || (q.fe && !q.wr), q.wr, q.atomic, false, none⟩
              split <;> (rename_i e; rw [e] at h1; exact h1)

/-! ### What reads one value into a register -/

/-- An instruction that only reads a value into its register. -/
theorem readInto_acts {s : State} {k : Nat} {st : StreamId} (d : Reg) (f : Nat → StreamId → Word)
    (ht : s.turn = some (k, st)) (hp : s.anyPending k st [d] = false) :
    readInto d f s = .next ((s.setReg k st d (f k st)).retire k st 2) := by simp [readInto, onTurn, ht, hp]

/-! ### Requests on launch records -/

/-- A device request on a record of the slice. -/
theorem onRecord_acts {s : State} {k : Nat} {st : StreamId} {reads : List Reg} {a : Reg} {f : Nat → StreamId → Nat → State → State}
    (ht : s.turn = some (k, st)) (hp : s.anyPending k st (a :: reads) = false) (hn : (s.reg k st a).toNat / 4096 = 0)
    (hh : (s.pcb (s.core k).part).holds (s.reg k st a).toNat = true) :
    onRecord reads a f s = .next (f k st (s.reg k st a).toNat s) := by simp [onRecord, onTurn, ht, hp, hn, hh]

/-- A device request on another record raises cause 0x12, reason 2 (R344). -/
theorem onRecord_refused {s : State} {k : Nat} {st : StreamId} {reads : List Reg} {a : Reg}
    {f : Nat → StreamId → Nat → State → State} (ht : s.turn = some (k, st)) (hp : s.anyPending k st (a :: reads) = false)
    (hn : (s.reg k st a).toNat / 4096 ≠ 0 ∨ (s.pcb (s.core k).part).holds (s.reg k st a).toNat = false) :
    onRecord reads a f s = .next (s.launchTrap k st (s.reg k st a).toNat 2 0) := by
  simp only [onRecord, onTurn, ht, hp, Bool.false_eq_true, if_false]
  rw [if_pos hn]

/-- A host command on a record of the slice of a partition that is not sealed. -/
theorem launchCommand_acts {s : State} {part n : Nat} {session : Bool} {f : State → State × Nat}
    (hf : s.fwstat = 0) (hh : (s.pcb part).holds n = true) (hs : (s.pcb part).isSealed = false ∨ session = true) :
    s.launchCommand part n session f = (f s).1.launchResult part n (f s).2 := by
  have : ((s.pcb part).isSealed && !session) = false := by obtain h | h := hs <;> simp [h]
  simp [State.launchCommand, hf, hh, this]

end Sys2Proof.Machine
end

