-- ==== Sys2Proof/Safety.lean ====
section
/-! DEFINITION. What a safe run is: no step of it stops. -/

namespace Sys2Proof

/-- `k` steps from a state all answer a next state. -/
def runsSafely (s : Machine.State) (k : Nat) : Prop :=
  match k with
  | 0 => True
  | k + 1 => ∃ t, Machine.step s = .next t ∧ runsSafely t k

end Sys2Proof
end

