-- ==== Sys2Proof/Tests/Slice0.lean ====
section
/-! SUPPORT. Tests: words decoded, ill-formed terms refused, single steps, and for each statement with hypotheses a state that
meets them. -/

open Sys2Proof Sys2Proof.Machine Sys2Proof.Claims

namespace Sys2Proof.Tests

-- One theorem after another: each needs little memory, all of them at once too much.
set_option Elab.async false

/-! ### States -/

/-- A register file with s1 = a, s2 = b and s3 = 1. -/
def bank (a b : Word) : Vector Word 32 :=
  #v[0, a, b, 1, 0, 0, 0, 0, 0, 0, 0, 0, 0, 0, 0, 0, 0, 0, 0, 0, 0, 0, 0, 0, 0, 0, 0, 0, 0, 0, 0, 0]

/-- A stream in the first of two parcels of a block at 0x1000. -/
def stream1 (a b : Word) : Stream :=
  { Stream.reset with
    regs := bank a b, pos := ⟨0x1000, 0, 4, 1, .inside⟩ }

/-- A layout entry of one dimension for reading and writing: base, space, format, extent, and bytes between elements (R71). -/
def entry (base space efmt ext stride : Nat) : BitVec 512 :=
  BitVec.ofNat 512 (base + 2 ^ 57 * space + 2 ^ 60 * efmt + 2 ^ 98 + 2 ^ 99 + 2 ^ 128 * ext + 2 ^ 256 * stride + 2 ^ 208 * 2 ^ 208)

/-- A point of a core crew on core k, with five layouts: core scratch, FIFO bank 0, space 4, core scratch of no extent, and a remote
phaser. -/
def point1 (k : Nat) : Point :=
  ⟨0, 1, 0, k, 0, [5], false,
    [entry 64 0 4 16 8, entry 0 3 4 16 8, entry 0x4000 4 4 16 8, entry 64 0 4 0 8,
      BitVec.ofNat 512 (0x4000 + 2 ^ 57 * 5 + 2 ^ 60 * 4 + 2 ^ 74 * 65 + 2 ^ 98 + 2 ^ 99 + 2 ^ 128 * 16 + 2 ^ 256 * 8)],
    1, 0xFFFFFFFF, true, 0⟩

/-- A core that runs a point, s1 = a and s2 = b in each stream. -/
def core1 (k : Nat) (a b : Word) : Core :=
  { Core.reset with
    halted := false, point := some (point1 k), trapvec := 0x2000,
    strC := stream1 a b, strT := stream1 a b, strA := stream1 a b, strH := stream1 a b }

/-- Partition 0, formed of cluster 0, with records 0 to 15 and its root table at 0x10000. -/
def pcb1 : Pcb :=
  { Pcb.reset with
    clusters := 1, formed := true, poolCnt := 16, key := 1, tag := 1, troot := 16 }

/-- A device with cores 0 and 1 at work, stream st of core 0 to move. -/
def devOf (st : StreamId) (a b : Word) : State :=
  { State.reset with
    turn := some (0, st), cores := [(0, core1 0 a b), (1, core1 1 a b)], pcbs := [(0, pcb1)] }

/-- The same with s1 = 7 and s2 = 3. -/
def dev (st : StreamId) : State := devOf st 7 3

/-- Core 0 changed. -/
def onCore (s : State) (f : Core → Core) : State := s.setCore 0 (f (s.core 0))

/-- A stream of core 0 changed. -/
def onStream (s : State) (st : StreamId) (f : Stream → Stream) : State := s.setStream 0 st (f (s.stream 0 st))

/-- The partition block changed. -/
def onPcb (s : State) (f : Pcb → Pcb) : State := s.setPcb 0 (f (s.pcb 0))

/-- Words of code from an address on, and tables that map the first 128 GiB onto themselves for reading and writing. -/
def withCode (s : State) (a : Nat) (ws : List Nat) : State :=
  (s.hbmPut 1 0x10000 (leBytes 8 0xD)).hbmPut 1 a (ws.flatMap fun w => parcelBytes 32 w)

/-- Core 0 in privileged state. -/
def inHandler (s : State) : State := onCore s fun c => { c with priv := true, hregs := bank 7 3 }

/-- An outstanding access of a kind to some bytes. -/
def access (k : AccKind) (ls : List Loc) (v : Word) : Access := ⟨k, ls, v, 0, 0, 0, false, 0x1000, 0, 0⟩

/-- A stream of core 0 with one outstanding access. -/
def owing (s : State) (st : StreamId) (a : Access) : State := onStream s st fun x => { x with accesses := [a] }

/-- The meaning answers a next state. -/
def isNext (o : Out) : Bool :=
  match o with
  | .next _ => true
  | .fault _ => false
  | .refused _ => false

theorem isNext_next {o : Out} (h : isNext o = true) : ∃ t, o = .next t := by
  cases o <;> simp_all [isNext]

/-- The state a meaning answers. -/
def after (o : Out) : State :=
  match o with
  | .next s => s
  | .fault _ => State.reset
  | .refused _ => State.reset

/-- A stream that does not wait waits for nothing of a kind. -/
theorem idle {s : State} {k : Nat} {x : StreamId} (h : (s.stream k x).wait = none) (w : Nat → WaitOn × Nat) :
    ∀ n, (s.stream k x).wait ≠ some (w n) := by simp [h]

/-- Core 0 of the device waits in no PHNEXT. -/
theorem no_next_waits {s : State} (h : ∀ x ∈ streamIds, (s.stream 0 x).wait = none) : NoNextWaits s 0 := by
  intro x n ph r m
  have : (s.stream 0 x).wait = none := h x (by cases x <;> decide)
  simp [this]

/-- An instruction that the vector unit can take, at a stream that does not wait. -/
theorem vector_ready {s : State} {i : Instr} (h : s.turn = some (0, .t) ∧ (s.stream 0 .t).wait = none ∧ s.anyPending 0 .t (vecRegs i) = false ∧
    (∀ u ∈ (vecForm i).uses, u.tile < (s.core 0).ntiles) ∧ (s.core 0).vec = none ∧ (s.core 0).accepts (vecClaims i) = true) :
    VectorReady s 0 i :=
  ⟨⟨h.1, by simp [h.2.1], h.2.2.1, h.2.2.2.1⟩, h.2.2.2.2.1, h.2.2.2.2.2⟩

/-! ### Decoding: words the spec works out (R82 to R102) -/

/-- ADD_16 s3,s4; ADDI_16 s5,-3; MOV_16 s24,s23; LDI_16 s11,4; SHRI_16 s11,11; EPOST_16 e3; EWAIT_16 e0; TEMPTY_16 t5; PEND_16.
Source: 04_encoding.md (worked block chain), 08, 09, 13, 14 and 15. -/
theorem test_words_16 :
    decodeTableWord 16 0x0864 = some (.add16 3 4) ∧
    decodeTableWord 16 0x1CBD = some (.addi16 5 0b11101) ∧
    decodeTableWord 16 0x0717 = some (.mov16 24 23) ∧
    decodeTableWord 16 0x2164 = some (.ldi16 11 4) ∧
    decodeTableWord 16 0x296B = some (.shri16 11 11) ∧
    decodeTableWord 16 0x3003 = some (.epost16 3) ∧
    decodeTableWord 16 0x3400 = some (.ewait16 0) ∧
    decodeTableWord 16 0x3805 = some (.tempty16 5) ∧
    decodeTableWord 16 0x3C00 = some .pend16 := by decide +kernel

/-- 07_scalar_instructions.md, 04, 13 and 15: div s3, s4, s5; insi s9, 3, 1; addi s2, s2, -100; bne s8, s0, top; mul s12, s10, s2; andi s11, s11, 15; ldi s12, 0x3F800000. -/
theorem test_words_scalar :
    decodeTableWord 32 0x80642805 = some (.div 3 4 5) ∧
    decodeTableWord 32 0x89290003 = some (.insi 9 1 3) ∧
    decodeTableWord 32 0x84420F9C = some (.addi 2 2 0xF9C) ∧
    decodeTableWord 32 0x8D001FFC = some (.bne 8 0 0xFFC) ∧
    decodeTableWord 32 0x818A1002 = some (.mul 12 10 2) ∧
    decodeTableWord 32 0x856B100F = some (.andi 11 11 15) ∧
    decodeTableWord 32 0x89883F80 = some (.ldi 12 1 0x3F80) := by decide +kernel

/-- 07_scalar_instructions.md (atomic), 04, 13 and 15: atcas.acq s10, L3, s7; ldw s6, L9, s7; sth s12, L0, s10; stf s29, L0, s9; ldfe s10, L0, s11; std s20, L1, s13. -/
theorem test_words_memory :
    decodeTableWord 32 0x9A8E06B6 = some (.atcas 10 7 3 1) ∧
    decodeTableWord 32 0x918E1280 = some (.ldw 6 7 9 0) ∧
    decodeTableWord 32 0x93140120 = some (.sth 12 10 0 0) ∧
    decodeTableWord 32 0x975201C0 = some (.stf 29 9 0 0) ∧
    decodeTableWord 32 0x929601A0 = some (.ldfe 10 11 0 0) ∧
    decodeTableWord 32 0x951A0360 = some (.std 20 13 1 0) := by decide +kernel

/-- 08_sync_instructions.md, 14 and 15: phwait s5, s6; qres s20, s3; qpub s20, s28; qtake s20, s3; rnext s12; xsw t5; join th, core; waitc 0, 0, 0, 0; wwr w0, s13; wrd s14, w0; lamprel; pself s11; pcoord s9, 0. -/
theorem test_words_sync :
    decodeTableWord 32 0xA18A3800 = some (.phwait 6 5) ∧
    decodeTableWord 32 0xA5066800 = some (.qres 20 3) ∧
    decodeTableWord 32 0xA5387000 = some (.qpub 20 28) ∧
    decodeTableWord 32 0xA5067800 = some (.qtake 20 3) ∧
    decodeTableWord 32 0xA3008800 = some (.rnext 12) ∧
    decodeTableWord 32 0xA000D805 = some (.xsw 5) ∧
    decodeTableWord 32 0xA0002005 = some (.join 0 5) ∧
    decodeTableWord 32 0xA0001800 = some (.waitc 0 0 0 0) ∧
    decodeTableWord 32 0xA01AD000 = some (.wwr 13 0) ∧
    decodeTableWord 32 0xA380C800 = some (.wrd 14 0) ∧
    decodeTableWord 32 0xA000B800 = some .lamprel ∧
    decodeTableWord 32 0xA2C0F800 = some (.pself 11) ∧
    decodeTableWord 32 0xA240F000 = some (.pcoord 9 0) := by decide +kernel

/-- 08_sync_instructions.md and 16: srd s4, %trapcause; swr %wdog, s5; trap 5. -/
theorem test_words_sys :
    decodeTableWord 32 0xA9000010 = some (.srd 4 0x010) ∧
    decodeTableWord 32 0xA80A1101 = some (.swr 5 0x101) ∧
    decodeTableWord 32 0xA8002005 = some (.trap 5) := by decide +kernel

/-- 04_encoding.md and 09_tile_instructions.md: tmul t4, t2!, t3.t; tsrnd t9, t4!, t5. -/
theorem test_words_tt :
    decodeTableWord 32 0xB220111A = some (.tmul 0x20 0x11 0x1A) ∧
    decodeTableWord 32 0xB9482128 = some (.tsrnd 0x48 0x21 0x28) := by decide +kernel

/-- 09_tile_instructions.md, 13 and 15: tsig t7, t6!; tscal t2, t1, s9; tfill t1, s12; tgelu t16, t12!; tmma m1, t0, t4; tdrain.clamp t8, m0, bf16, rne; tdrainm L5, s12, m1, fp32, rne; taclr m0. -/
theorem test_words_tu_tm :
    decodeTableWord 32 0xC1070620 = some (.tsig 0x38 0x31) ∧
    decodeTableWord 32 0xC1820109 = some (.tscal 0x10 0x08 9) ∧
    decodeTableWord 32 0xC281000C = some (.tfill 0x08 12) ∧
    decodeTableWord 32 0xC1700C20 = some (.tgelu 0x80 0x61) ∧
    decodeTableWord 32 0xC4400800 = some (.tmma 1 0x00 0x20) ∧
    decodeTableWord 32 0xC5100011 = some (.tdrain 0 0x40 0 1 0 1) ∧
    decodeTableWord 32 0xC5C14300 = some (.tdrainm 1 5 12 0 0) ∧
    decodeTableWord 32 0xC6000000 = some (.taclr 0) := by decide +kernel

/-- 09_tile_instructions.md, 13 and 14: tcvt.sat t3, t2, e4m3, rne; tqnt t12, t8!, e4m3; ttrl t10, t9; tdesc t5, s2, s3, bf16; tget s4, t7, s6; tstats t9, s14; tdrd s11, t15; tfull t1. -/
theorem test_words_tc_td :
    decodeTableWord 32 0xC806040A = some (.tcvt 0x18 0x10 0 1 2) ∧
    decodeTableWord 32 0xC8581042 = some (.tqnt 0x60 0x41 0) ∧
    decodeTableWord 32 0xC8D41200 = some (.ttrl 0x50 0x48) ∧
    decodeTableWord 32 0xCC050219 = some (.tdesc 0x28 2 3 1) ∧
    decodeTableWord 32 0xCCE70430 = some (.tget 0x38 4 6) ∧
    decodeTableWord 32 0xCCC90E00 = some (.tstats 0x48 14) ∧
    decodeTableWord 32 0xCC6F0B00 = some (.tdrd 0x78 11) ∧
    decodeTableWord 32 0xCC410000 = some (.tfull 0x08) := by decide +kernel

/-- 11_array_instructions.md, 04 and 14: afwd p5, t8, t12; abwd p0, t4, t12; aupd p0, t0!, t4!; axfr p3; aasy p(s6), t16; aprog p0, t8!; argrw p1; amask p7, L12; astat p2, t20; aset ap.c0, s9; aset s9, ap.stat. -/
theorem test_words_array :
    decodeTableWord 32 0xD02A0300 = some (.afwd 5 2 0 3 0 0) ∧
    decodeTableWord 32 0xD1010300 = some (.abwd 0 1 0 3 0 0) ∧
    decodeTableWord 32 0xD2000908 = some (.aupd 0 0 1 1 1 0) ∧
    decodeTableWord 32 0xD3180000 = some (.axfr 3 0) ∧
    decodeTableWord 32 0xD5300404 = some (.aasy 6 4 0 1) ∧
    decodeTableWord 32 0xD6020800 = some (.aprog 0 2 1 0) ∧
    decodeTableWord 32 0xD7080000 = some (.argrw 1 0) ∧
    decodeTableWord 32 0xD8386000 = some (.amask 7 12 0) ∧
    decodeTableWord 32 0xDA100500 = some (.astat 2 20 0 0) ∧
    decodeTableWord 32 0xDF424000 = some (.asetWrite 8 9) ∧
    decodeTableWord 32 0xDFBA6000 = some (.asetRead 23 9) := by decide +kernel

/-- 12_hoist_instructions.md: hld t8, L3, s9, s10; hst t1!, L1, s9, s11; hsta t4.t, L5, s2, s3; hcpy L6, L2, s12; hsend L7, L2, s12; hfill L6, L0, s12. -/
theorem test_words_hoist :
    decodeTableWord 32 0xE0800D2A = some (.hld 8 3 9 10) ∧
    decodeTableWord 32 0xE218052B = some (.hst 1 2 1 9 11) ∧
    decodeTableWord 32 0xE4441443 = some (.hsta 4 1 5 2 3) ∧
    decodeTableWord 32 0xF0060260 = some (.hcpy 6 2 12) ∧
    decodeTableWord 32 0xF1070260 = some (.hsend 7 2 12) ∧
    decodeTableWord 32 0xF2060060 = some (.hfill 6 12) := by decide +kernel

/-! ### States that meet the hypotheses of the statements -/

theorem test_meets_scalar : Acts (dev .c) 0 .c [4, 1, 2] ∧ Acts (dev .c) 0 .c [4, 1] := by
  unfold Acts; decide +kernel

/-- R168: a zero divisor, the overflowing pair, and the others. -/
theorem test_meets_divisions :
    (Acts (devOf .c 7 0) 0 .c [4, 1, 2] ∧ (devOf .c 7 0).reg 0 .c 2 = 0) ∧
    (Acts (devOf .c 0x8000000000000000 (-1)) 0 .c [4, 1, 2] ∧
      ((devOf .c 0x8000000000000000 (-1)).reg 0 .c 1).toInt = -2 ^ 63 ∧ ((devOf .c 0x8000000000000000 (-1)).reg 0 .c 2).toInt = -1) ∧
    (Acts (devOf .c 0x8000000000000000 1) 0 .c [4, 1, 2] ∧ (devOf .c 0x8000000000000000 1).reg 0 .c 2 ≠ 0 ∧
      ¬ (((devOf .c 0x8000000000000000 1).reg 0 .c 1).toInt = -2 ^ 63 ∧ ((devOf .c 0x8000000000000000 1).reg 0 .c 2).toInt = -1)) := by
  unfold Acts; decide +kernel

/-- R166: a load of s4 is outstanding. -/
theorem test_meets_stalls :
    let s := owing (dev .c) .c (access (.load 4 false) [.scratch 0 64] 0)
    s.turn = some (0, .c) ∧ s.anyPending 0 .c [4] = true ∧ s.anyPending 0 .c [4, 1, 2] = true := by decide +kernel

theorem test_meets_ScalarFrame :
    ∃ t, (dev .c).turn = some (0, .c) ∧ scalarDest (.add 4 1 2) = some 4 ∧ exec (.add 4 1 2) (dev .c) = .next t := by
  obtain ⟨t, h⟩ := isNext_next (o := exec (.add 4 1 2) (dev .c)) (by decide +kernel)
  exact ⟨t, rfl, rfl, h⟩

/-- R173: taken to a header, taken to a word that is none, and not taken, for equal and for unequal registers. -/
theorem test_meets_ConditionalBranches :
    let good := withCode (devOf .c 3 3) 0x1000 [0xFF004000]
    let bad := withCode (devOf .c 3 3) 0x1000 [0x80000000]
    (Acts good 0 .c [1, 2] ∧ good.reg 0 .c 1 = good.reg 0 .c 2 ∧ good.badTarget 0 0x1000 = none ∧ good.targetFail 0 0x1000 = none) ∧
    (Acts bad 0 .c [1, 2] ∧ bad.reg 0 .c 1 = bad.reg 0 .c 2 ∧ bad.badTarget 0 0x1000 ≠ none) ∧
    (Acts (dev .c) 0 .c [1, 2] ∧ (dev .c).reg 0 .c 1 ≠ (dev .c).reg 0 .c 2) := by
  unfold Acts; decide +kernel

/-- A branch taken to a word that no table maps. -/
theorem test_meets_BranchBeforeFault :
    let s := devOf .c 3 3
    Acts s 0 .c [1, 2] ∧ (0x1000 : Nat) = (((s.pos 0 .c).hdr + 4 * (0 : BitVec 12).toInt) % 2 ^ 57).toNat ∧
      s.badTarget 0 0x1000 = none ∧ s.targetFail 0 0x1000 ≠ none ∧ s.reg 0 .c 1 = s.reg 0 .c 2 := by
  unfold Acts; decide +kernel

/-- R174: a relative target, one in a register, and one on the call stack, with room for a push at a depth of seven. -/
theorem test_meets_UnconditionalTransfers :
    let s := onStream (withCode (devOf .c 0x1000 0) 0x1000 [0xFF004000]) .c fun x => { x with stack := List.replicate 7 0x1000 }
    Acts s 0 .c [1] ∧ s.badTarget 0 0x1000 = none ∧ (0x1000 : Nat) = (((s.pos 0 .c).hdr + 4 * (0 : BitVec 12).toInt) % 2 ^ 57).toNat ∧
      (0x1000 : Nat) = (s.reg 0 .c 1).toNat ∧ (s.stackOf 0 .c).length < 8 ∧ s.stackOf 0 .c = 0x1000 :: List.replicate 6 0x1000 := by
  unfold Acts; decide +kernel

/-- R57: a full stack and an empty one. -/
theorem test_meets_CallDepth :
    let s := onStream (withCode (devOf .c 0x1000 0) 0x1000 [0xFF004000]) .c fun x => { x with stack := List.replicate 8 0x1000 }
    Acts s 0 .c [1] ∧ (s.stackOf 0 .c).length = 8 ∧ s.badTarget 0 (target (s.pos 0 .c).hdr (0 : BitVec 12)) = none ∧
      (s.reg 0 .c 1).toNat < 2 ^ 57 ∧ s.badTarget 0 (s.reg 0 .c 1).toNat = none ∧ (dev .c).stackOf 0 .c = [] := by
  unfold Acts; decide +kernel

theorem test_meets_TransferFrame :
    let s := withCode (dev .c) 0x1000 [0xFF004000]
    ∃ t, s.turn = some (0, .c) ∧ (s.core 0).raised = none ∧ (s.core 0).priv = false ∧ (s.core 0).trapvec ≠ 0 ∧
      (s.core 0).trapBad = false ∧ NoNextWaits s 0 ∧ exec (.jmp 0) s = .next t := by
  obtain ⟨t, h⟩ := isNext_next (o := exec (.jmp 0) (withCode (dev .c) 0x1000 [0xFF004000])) (by decide +kernel)
  exact ⟨t, by decide +kernel, by decide +kernel, by decide +kernel, by decide +kernel, by decide +kernel,
    no_next_waits (by decide +kernel), h⟩

theorem test_meets_ResumeLabel :
    let good := withCode (dev .c) 0x1000 [0xFF004000]
    let bad := withCode (dev .c) 0x1000 [0x80000000]
    (good.turn = some (0, .c) ∧ (0x1000 : Nat) = (((good.pos 0 .c).hdr + 4 * (0 : BitVec 11).toInt) % 2 ^ 57).toNat ∧ good.badTarget 0 0x1000 = none ∧
      good.targetFail 0 0x1000 = none) ∧
    ((dev .c).turn = some (0, .c) ∧ (dev .c).badTarget 0 0x1000 = none ∧ (dev .c).targetFail 0 0x1000 ≠ none) ∧
    bad.turn = some (0, .c) ∧ (0x1000 : Nat) = (((bad.pos 0 .c).hdr + 4 * (0 : BitVec 11).toInt) % 2 ^ 57).toNat ∧ bad.badTarget 0 0x1000 ≠ none := by
  decide +kernel

/-- One halfword, MOV_16 s1,s2, and two, ADD s1,s2,s3, at 0x1004. -/
theorem test_meets_StepRunsDecoded :
    let s := withCode (dev .c) 0x1000 [0xFF004000, 0x04220000]
    let w := withCode (dev .c) 0x1000 [0xFF004000, 0x80221800]
    let s1 := (w.fetchHalf 0 (w.fetchAddr 0 .c)).1
    (s.resetDue = [] ∧ s.agenda = [] ∧ s.turn = some (0, .c) ∧ s.runnable 0 .c = true ∧ (s.pos 0 .c).entry = .inside ∧
      (s.fetchHalf 0 (s.fetchAddr 0 .c)).2 = .ok (0x22, 0x04) ∧ half 0x22 0x04 < 32768 ∧ (decode [0x22, 0x04]).toBool = true) ∧
    w.resetDue = [] ∧ w.agenda = [] ∧ w.turn = some (0, .c) ∧ w.runnable 0 .c = true ∧ (w.pos 0 .c).entry = .inside ∧
      (w.fetchHalf 0 (w.fetchAddr 0 .c)).2 = .ok (0x22, 0x80) ∧ 32768 ≤ half 0x22 0x80 ∧ (w.pos 0 .c).off + 1 < (w.pos 0 .c).len ∧
      (s1.fetchHalf 0 ((w.fetchAddr 0 .c + 2) % 2 ^ 57)).2 = .ok (0x00, 0x18) ∧
      decode [0x22, 0x80, 0x00, 0x18] = .ok (.add 1 2 3, []) := by
  decide +kernel

theorem test_meets_StepRunsEvents :
    let s : State := { dev .c with agenda := [.headframeRound] }
    let d : State := { dev .c with resetDue := [0] }
    s.resetDue = [] ∧ s.agenda = .headframeRound :: [] ∧ encode .headframeRound = none ∧ d.resetDue ≠ [] := by decide +kernel

/-- A block of one execution, one of four, and one whose count register is zero, s4. -/
theorem test_meets_BlockEntry :
    let at' (w : Nat) : State := onStream (withCode (dev .c) 0x1000 [w]) .c fun x => { x with pos := Pos.enter 0x1000 }
    let meets (w : Nat) : Prop := (at' w).runnable 0 .c = true ∧ ((at' w).pos 0 .c).entry = .fresh ∧ ((at' w).pos 0 .c).hdr % 4 = 0 ∧
      ((at' w).fetchWord 0 ((at' w).pos 0 .c).hdr).2 = .ok w ∧ w / 2 ^ 24 = 255 ∧ headerReason w = 0
    meets 0xFF004000 ∧ meets 0xFF004404 ∧ (meets 0xFF004804 ∧
      headerCount 0xFF004804 (((at' 0xFF004804).fetchWord 0 0x1000).1.reg 0 .c) = 0) ∧
      ∀ r, headerReg 0xFF004804 = some r → (((at' 0xFF004804).fetchWord 0 0x1000).1.core 0).pending .c r = false := by
  refine ⟨?_, ?_, ⟨?_, ?_⟩, ?_⟩
  · decide +kernel
  · decide +kernel
  · decide +kernel
  · decide +kernel
  · intro r h
    have : r = 4 := by have := h; simp [headerReg] at this; exact this.symm
    subst this
    decide +kernel

/-- R73: a layout of two dimensions with a swizzle. -/
theorem test_meets_LayoutAddress : (parseLayout 0 (entry 64 0 4 16 8)).ndim < 4 ∧ (parseLayout 0 (entry 64 0 4 16 8)).swz < 256 := by
  decide +kernel

/-- R73: coordinate 1 of layout 0 is the element at 72; one stream with room, one whose counters both stand at 65,535. -/
theorem test_meets_MemoryIssue :
    let s := dev .c
    let y := parseLayout 0 (entry 64 0 4 16 8)
    let ls (n : Nat) : List Loc := (List.range n).map fun i => .scratch 0 (72 + i)
    Acts s 0 .c [4, 3] ∧ (∀ ld : Bool, HasRoom s 0 .c ld) ∧
      (∀ x ∈ loads 4 3 0 0, s.find 0 0 (s.reg 0 .c 3) ⟨x.2.1, true, false, decide (x.2.1 = 8), false, false, false⟩ = (s, .bytes y 72 (ls x.2.1))) ∧
      ∀ x ∈ stores 4 3 0 0, s.find 0 0 (s.reg 0 .c 3) ⟨x.2, false, true, decide (x.2 = 8), false, false, false⟩ = (s, .bytes y 72 (ls x.2)) := by
  unfold Acts HasRoom; decide +kernel

/-- R110: a stream whose loads counter stands at 65,535. -/
theorem test_meets_full_counter :
    ¬ HasRoom (onStream (dev .c) .c fun x => { x with accesses := List.replicate 65535 (access (.load 4 true) [] 0) }) 0 .c true := by
  show ¬ ((List.replicate 65535 (access (.load 4 true) [] 0)).filter fun a => a.kind.isLoad == true).length < 65535
  rw [List.filter_replicate]
  have h : ((access (.load 4 true) [] 0).kind.isLoad == true) = true := by decide
  rw [if_pos h, List.length_replicate]
  decide

/-- The same in space 4, through the tables, with the last byte of the element at 0x4008. -/
theorem test_meets_ElementAddress :
    let s := withCode (dev .c) 0x1000 [0xFF004000]
    let r := s.find 0 2 (s.reg 0 .c 3) ⟨4, true, false, false, false, false, false⟩
    r.2 = .bytes (parseLayout 2 (entry 0x4000 4 4 16 8)) 0x4008 [.hbm 0x4008, .hbm 0x4009, .hbm 0x400A, .hbm 0x400B] := by
  decide +kernel

/-- R389: the last eight bytes of a leaf of 128 GiB, for an atomic of the core. -/
theorem test_meets_TranslatedBytes :
    let s := withCode (dev .c) 0x1000 [0xFF004000]
    (s.translate 0 0 (2 ^ 37 - 8)).2 = .ok ⟨0, 0, 2 ^ 37, 0, true, true, false, false⟩ ∧
      (s.locateVirtual 0 0 (2 ^ 37 - 8) 8 ⟨true, true, true, false, none⟩).2 = .ok ((List.range 8).map fun i => .hbm (2 ^ 37 - 8 + i)) := by
  decide +kernel

/-- Layout 3 has no element: every coordinate is outside. -/
theorem test_meets_OutOfBounds :
    let s := dev .c
    let y := parseLayout 3 (entry 64 0 4 0 8)
    Acts s 0 .c [4, 3] ∧ (∀ ld : Bool, HasRoom s 0 .c ld) ∧ y.fill = false ∧
      (∀ x ∈ loads 4 3 3 0, s.find 0 3 (s.reg 0 .c 3) ⟨x.2.1, true, false, decide (x.2.1 = 8), false, false, false⟩ = (s, .outside y)) ∧
      ∀ x ∈ stores 4 3 3 0, s.find 0 3 (s.reg 0 .c 3) ⟨x.2, false, true, decide (x.2 = 8), false, false, false⟩ = (s, .outside y) := by
  unfold Acts HasRoom; decide +kernel

/-- The same for full/empty operations and atomics. -/
theorem test_meets_OutOfBoundsWords :
    let s := dev .c
    let y := parseLayout 3 (entry 64 0 4 0 8)
    Acts s 0 .c [4, 3] ∧ Acts s 0 .c [0, 3] ∧ Acts s 0 .c [4, 4 + 1, 3] ∧ (∀ ld : Bool, HasRoom s 0 .c ld) ∧
      s.find 0 3 (s.reg 0 .c 3) ⟨8, true, false, false, true, false, false⟩ = (s, .outside y) ∧
      s.find 0 3 (s.reg 0 .c 3) ⟨8, false, true, false, true, false, false⟩ = (s, .outside y) ∧
      (∀ w ∈ [0, 1], ∀ x ∈ atomics 4 3 3 0 w, s.find 0 3 (s.reg 0 .c 3) ⟨x.2.2.1, true, true, false, false, true, x.2.2.2⟩ = (s, .outside y)) ∧
      s.find 0 3 (s.reg 0 .c 3) ⟨8, true, true, false, false, true, true⟩ = (s, .outside y) := by
  unfold Acts HasRoom; decide +kernel

/-- Layout 5 is at or above the layout count: cause 0x07, reason 1 (R72, R164). -/
theorem test_meets_MemoryTraps :
    let s := dev .c
    Acts s 0 .c [4, 3] ∧ (∀ ld : Bool, HasRoom s 0 .c ld) ∧
      (∀ x ∈ loads 4 3 5 0, s.find 0 5 (s.reg 0 .c 3) ⟨x.2.1, true, false, decide (x.2.1 = 8), false, false, false⟩ = (s, .trap 7 (layoutInfo 5 1))) ∧
      ∀ x ∈ stores 4 3 5 0, s.find 0 5 (s.reg 0 .c 3) ⟨x.2, false, true, decide (x.2 = 8), false, false, false⟩ = (s, .trap 7 (layoutInfo 5 1)) := by
  unfold Acts HasRoom; decide +kernel

theorem test_meets_LoadReturns :
    let a := access (.load 4 true) [.scratch 0 64] 0
    let s := owing (dev .c) .c a
    let e := onCore s fun c => { c with scratchBad := [(64, true)] }
    (∀ u ∈ [s, e], (u.stream 0 .c).accesses = a :: [] ∧ a.kind = .load 4 true ∧ u.accessHeld 0 .c a = false ∧
      (u.core 0).raised = none ∧ a.order = 0) ∧ (s.ordered 0 a.order a.locs).loadBad 0 a = false ∧
      (e.ordered 0 a.order a.locs).loadBad 0 a = true := by decide +kernel

theorem test_meets_StorePerformed :
    let a := access .store [.scratch 0 64, .scratch 0 65] 0x1234
    let s := owing (dev .c) .c a
    s.memoryWf ∧ (s.stream 0 .c).accesses = a :: [] ∧ a.kind = .store ∧ s.accessHeld 0 .c a = false ∧
      (s.core 0).raised = none ∧ Apart a.locs ∧ a.order = 0 := by unfold Apart; decide +kernel

theorem test_meets_AtomicIssue :
    let s := dev .c
    let y := parseLayout 0 (entry 64 0 4 16 8)
    let ls (n : Nat) : List Loc := (List.range n).map fun i => .scratch 0 (72 + i)
    (∀ ld : Bool, HasRoom s 0 .c ld) ∧ Acts s 0 .c [4, 3] ∧ Acts s 0 .c [4, 4 + 1, 3] ∧
      (∀ x ∈ atomics 4 3 0 0 1, s.find 0 0 (s.reg 0 .c 3) ⟨x.2.2.1, true, true, false, false, true, x.2.2.2⟩ = (s, .bytes y 72 (ls x.2.2.1))) ∧
      s.find 0 0 (s.reg 0 .c 3) ⟨8, true, true, false, false, true, true⟩ = (s, .bytes y 72 (ls 8)) := by
  unfold Acts HasRoom; decide +kernel

theorem test_meets_AtomicPerformed :
    let a := access (.atomic .addw 0 (some 4)) [.scratch 0 64, .scratch 0 65, .scratch 0 66, .scratch 0 67] 1
    let b := access (.atomic .addw 0 none) [.scratch 0 64, .scratch 0 65, .scratch 0 66, .scratch 0 67] 1
    ∀ x ∈ [a, b], (owing (dev .c) .c x).memoryWf ∧ ((owing (dev .c) .c x).stream 0 .c).accesses = x :: [] ∧
      (owing (dev .c) .c x).accessHeld 0 .c x = false ∧
      (∀ l ∈ x.locs, ((owing (dev .c) .c x).syncSectors 0 x.locs).locBad l = false) ∧
      ((owing (dev .c) .c x).core 0).raised = none ∧ Apart x.locs ∧ x.locs.length = AtOp.width .addw := by unfold Apart; decide +kernel

theorem test_meets_AtomicReturns :
    let a := access (.returning 4) [.scratch 0 64] 9
    let s := owing (dev .c) .c a
    (s.stream 0 .c).accesses = a :: [] ∧ a.kind = .returning 4 ∧ s.accessHeld 0 .c a = false ∧ (s.core 0).raised = none := by
  decide +kernel

/-- R181: a full word and an empty one. -/
theorem test_meets_FullEmptyWords :
    let e := dev .c
    let f := e.setWordFull (.scratch 0 72) true
    let y := parseLayout 0 (entry 64 0 4 16 8)
    let ls : List Loc := (List.range 7).map fun i => .scratch 0 (73 + i)
    let meets (s : State) : Prop := Acts s 0 .c [4, 3] ∧ Acts s 0 .c [0, 3] ∧ (s.core 0).quiet .c = true ∧ s.waiters = [] ∧
      s.find 0 0 (s.reg 0 .c 3) ⟨8, true, false, false, true, false, false⟩ = (s, .bytes y 72 (.scratch 0 72 :: ls)) ∧
      s.find 0 0 (s.reg 0 .c 3) ⟨8, false, true, false, true, false, false⟩ = (s, .bytes y 72 (.scratch 0 72 :: ls))
    (meets e ∧ e.wordFull (.scratch 0 72) = false) ∧ meets f ∧ f.wordFull (.scratch 0 72) = true ∧
      ∀ x ∈ Loc.scratch 0 72 :: ls, f.locBad x = false := by
  unfold Acts; decide +kernel

/-- R142: a FIFO bank of exactly 8 bytes for a load, and one with exactly 8 bytes of room for a store. -/
theorem test_meets_FifoServed :
    let a := access (.fifoLoad 0 4) [] 0
    let b := access (.fifoStore 0) [] 5
    let s := (owing (dev .c) .c a).setFifo 0 0 [1, 2, 3, 4, 5, 6, 7, 8]
    let t := owing (dev .c) .c b
    ((s.stream 0 .c).accesses = a :: [] ∧ s.accessHeld 0 .c a = false ∧ (s.core 0).raised = none ∧
      8 ≤ (s.fifoBytes 0 0).length ∧ s.fifoAhead 0 0 true a.order0 = false ∧ s.fifoError 0 0 8 = false) ∧
    (t.stream 0 .c).accesses = b :: [] ∧ t.accessHeld 0 .c b = false ∧ (t.core 0).raised = none ∧
      (t.fifoBytes 0 0).length + 8 ≤ 524288 ∧ t.fifoAhead 0 0 false b.order0 = false := by decide +kernel

/-! Events, counters and meetings -/

/-- R67: T and A wait for event 3 with EWAIT, H with EWAITK. -/
theorem test_meets_EventPost :
    let w (keep : Bool) (x : Stream) : Stream := { x with wait := some (.event 3 keep 2, 0) }
    let s := onStream (onStream (onStream (dev .c) .t (w false)) .a (w false)) .h (w true)
    s.turn = some (0, .c) ∧ (dev .c).turn = some (0, .c) ∧ AwaitsEvent s 0 .t 3 false ∧ AwaitsEvent s 0 .a 3 false ∧
      AwaitsEvent s 0 .h 3 true ∧ ∀ x, ¬ AwaitsEvent (dev .c) 0 x 3 false := by
  refine ⟨rfl, rfl, ⟨2, 0, rfl⟩, ⟨2, 0, rfl⟩, ⟨2, 0, rfl⟩, ?_⟩
  rintro x ⟨len, m, h⟩
  cases x <;> exact absurd h (by simp [dev, devOf, State.stream, State.core, tget, tfind, core1, stream1, Core.stream, Stream.reset])

theorem test_meets_EventWait :
    let f := onCore (dev .c) fun c => c.setEvent 31 true
    (f.turn = some (0, .c) ∧ (f.core 0).event 31 = true) ∧ (dev .c).turn = some (0, .c) ∧ ((dev .c).core 0).event 31 = false := by
  decide +kernel

theorem test_meets_CounterWait :
    let s := owing (dev .c) .c (access .store [.scratch 0 64] 0)
    s.turn = some (0, .c) ∧ (s.core 0).counters .c = (0, 1, 0, 0) := by decide +kernel

/-- R156: a meeting of C and T that C completes, one that still lacks T, and one of two streams that wait. -/
theorem test_meets_Meetings :
    let j (x : Stream) : Stream := { x with wait := some (.join 12 0, 0) }
    let s := onStream (dev .c) .t j
    let u := onStream s .c j
    (s.turn = some (0, .c) ∧ s.clocked 0 = true ∧ (12 : BitVec 4).getLsbD 3 = true ∧ ((s.waitOn 0 .c (.join 12 0)).core 0).met 12 0 = true) ∧
    (((dev .c).waitOn 0 .c (.join 12 0)).core 0).met 12 0 = false ∧ (u.core 0).met 12 0 = true := by decide +kernel

/-! Phasers -/

/-- Cluster phaser 1 of partition 0, at a phase, with the C stream of core 0 as its member in a role. -/
def phaser1 (phase : Nat) (ms : List Participant) : Phaser :=
  { Phaser.reset with
    alloc := true, phase := phase, members := ms }

/-- The C stream of core 0 in a role at a cursor. -/
def member1 (sg wt : Bool) (cursor : Nat) : Participant := ⟨0, .c, sg, wt, cursor, none, 0, 1⟩

/-- s1 names phaser 1, s2 holds a phase. -/
def withPhaser (n : Word) (p : Phaser) : State := (devOf .c 1 n).setPhaser 0 1 p

/-- R195, R196: no registration; a signaller at the phase and ahead of it; a waiter on a phase that is done and on one that is
not; each where PHNEXT completes and where it waits. -/
theorem test_meets_PhaserInstructions :
    let a : State := withPhaser 0 (phaser1 0 [])
    let b := withPhaser 0xFFFFFFFF (phaser1 0 [member1 true true 0])
    let c := withPhaser 0 (phaser1 0 [member1 true true 1])
    let d := withPhaser 0 (phaser1 1 [member1 false true 0])
    let ok (s : State) : Prop := Acts s 0 .c [1, 2] ∧ NamesPhaser s 0 (s.reg 0 .c 1) 1 ∧ (s.phaser 0 1).bytes = false
    let m (s : State) := s.member 0 .c (s.phaser 0 1)
    (ok a ∧ m a = none) ∧ (ok b ∧ m b = some (member1 true true 0) ∧ (b.phaser 0 1).done ((b.reg 0 .c 2).toNat % 2 ^ 32) = true ∧
      (b.phaser 0 1).done 0 = false) ∧
    (ok c ∧ m c = some (member1 true true 1) ∧ 1 ≠ (c.phaser 0 1).phase ∧ (c.phaser 0 1).done ((c.reg 0 .c 2).toNat % 2 ^ 32) = false) ∧
    ok d ∧ m d = some (member1 false true 0) ∧ (d.phaser 0 1).done 0 = true := by
  unfold Acts NamesPhaser; decide +kernel

/-- R198: nothing posted, and a count posted already. -/
theorem test_meets_ExpectedBytes :
    let p (e : Option Nat) : State := withPhaser 0xFFFFFFFFFFFF { phaser1 0 [member1 false true 0] with bytes := true, posted := e }
    ∀ e ∈ [none, some 0], Acts (p e) 0 .c [1, 2] ∧ NamesPhaser (p e) 0 ((p e).reg 0 .c 1) 1 ∧
      (p e).member 0 .c ((p e).phaser 0 1) = some (member1 false true 0) ∧ ((p e).phaser 0 1).bytes = true ∧
      ((p e).phaser 0 1).ordEn = false ∧ (p e).inbound = [] ∧ ((p e).reg 0 .c 2).toNat < 2 ^ 48 ∧ ((p e).phaser 0 1).posted = e := by
  unfold Acts NamesPhaser; decide +kernel

theorem test_meets_PhaseOrder :
    (phaser1 0 []).phase < 2 ^ 32 ∧ (phaser1 (2 ^ 32 - 1) []).phase < 2 ^ 32 ∧ (phaser1 (2 ^ 32 - 1) []).phase ≠ 0 := by decide

/-- R197: a signalled phase of a signaller that is ahead, and a byte count that is reached. -/
theorem test_meets_PhaseCompletes :
    let a := withPhaser 0 { phaser1 0 [member1 true true 1] with signalled := true }
    let b := withPhaser 0 { phaser1 0 [member1 false true 0] with bytes := true, posted := some 8, arrived := 8 }
    ∀ s ∈ [a, b], s.phaseReady 0 1 = true ∧ s.waiters = [] ∧ s.inbound = [] ∧ (∀ x ∈ s.cores, x.2.carve = []) ∧
      (s.cluster 0).stopped = false := by decide +kernel

theorem test_meets_CarveRequest :
    let s := withPhaser 0 (phaser1 0 [member1 true false 0])
    let n := withPhaser 0 (phaser1 0 [])
    (Acts n 0 .c [1] ∧ NamesPhaser n 0 (n.reg 0 .c 1) 1 ∧ (n.core 0).onHandler .c = false ∧ (n.core 0).point = some (point1 0) ∧
      0 ∈ crewCores 0 0 ∧ (n.phaser 0 1).members = []) ∧
    Acts s 0 .c [1] ∧ NamesPhaser s 0 (s.reg 0 .c 1) 1 ∧ (s.core 0).point = some (point1 0) ∧
      ∀ j ∈ crewCores 0 0, ∃ m ∈ (s.phaser 0 1).members, m.core = j ∧ m.recNo = (point1 0).recNo ∧ m.serial = (point1 0).serial := by
  unfold Acts NamesPhaser; decide +kernel

/-! The point, the lamp and the windows -/

/-- R114: no ticket, one ticket, and the handler. -/
theorem test_meets_PointPartEnds :
    let t := onStream (dev .c) .c fun x => { x with tickets := [(3, 9)] }
    let h := inHandler (dev .c)
    ((dev .c).turn = some (0, .c) ∧ ((dev .c).core 0).onHandler .c = false ∧ ((dev .c).stream 0 .c).tickets = []) ∧
    (t.turn = some (0, .c) ∧ (t.core 0).onHandler .c = false ∧ (t.stream 0 .c).tickets = (3, 9) :: []) ∧
    h.turn = some (0, .c) ∧ (h.core 0).onHandler .c = true := by decide +kernel

/-- A point of a RANGE record with 10 indices left, with none left, and one of another kind. -/
theorem test_meets_PointQueries :
    let p : Point := { point1 0 with range := true }
    let f (cur : Nat) : Fired := ⟨1, [], 0, 0, 0, some 0, true, false, cur, 10, 0, false, []⟩
    let r (cur : Nat) : Record := { Record.reset with words := Record.reset.words.set 7 4, points := [f cur] }
    let s (cur : Nat) : State := (onCore (dev .c) fun c => { c with point := some p }).setRecord 0 (r cur)
    (Acts (dev .c) 0 .c [4, 5] ∧ ((dev .c).core 0).point = some (point1 0) ∧ (point1 0).range = false) ∧
    (∀ cur ∈ [0, 10], Acts (s cur) 0 .c [4, 5] ∧ ((s cur).core 0).point = some p ∧ p.range = true ∧ ((s cur).record p.recNo).arming = p.arming ∧
      ((s cur).record p.recNo).points.find? (fun x => x.serial == p.serial) = some (f cur)) ∧
    (f 0).cur < (f 0).stop ∧ (f 10).stop ≤ (f 10).cur ∧ (f 10).nint < 32 ∧ (f 10).exhausted = false ∧ (r 10).returned = [] := by
  unfold Acts; decide +kernel

/-- R122: a crew without work and, beside it, one with twice the grain left, one with less, and two returned intervals; a crew with 32
intervals, and one that has received (-1, -1). -/
theorem test_meets_PointQueries_work :
    let f : Fired := ⟨1, [], 0, 0, 0, some 0, true, false, 10, 10, 31, false, []⟩
    let v (stop : Nat) : Fired := ⟨2, [], 0, 0, 0, some 1, true, false, 4, stop, 1, false, [(0, stop)]⟩
    let r (l : List Fired) : Record := { Record.reset with words := Record.reset.words.set 7 4, points := l, returned := [] }
    let b : Record := { r [f] with returned := [(30, 40), (20, 25)] }
    let rest (w : Fired) : Nat := w.stop - w.cur
    (f.exhausted = false ∧ f.stop ≤ f.cur ∧ f.nint < 32) ∧
    ((20, 25) ∈ b.returned ∧ ∀ z ∈ b.returned, 20 < z.1 ∨ z = (20, 25)) ∧
    (0 < ((r [f]).words.toList.getD 7 0).toNat ∧ (v 12).serial ≠ f.serial ∧ 2 * 4 ≤ rest (v 12) ∧ v 12 ∈ (r [f, v 12]).points ∧
      (∀ w ∈ [f, v 12], rest w < rest (v 12) ∨ rest w = rest (v 12) ∧ ¬ w.crew.getD 0 < (v 12).crew.getD 0 ∧ (w.crew = (v 12).crew → w = v 12))) ∧
    (∀ w ∈ (r [f, v 11]).points, rest w < 2 * 4) ∧ 32 ≤ ({ f with nint := 32 } : Fired).nint ∧ ({ f with exhausted := true } : Fired).exhausted = true := by
  decide +kernel

/-- R130, R132: a launch of class single, one of class none, the lamp held and not held. -/
theorem test_meets_LampInstructions :
    let n := onCore (dev .c) fun c => { c with point := some { point1 0 with lamp := 0 } }
    let h := (dev .c).setShaft 0 { Shaft.reset with lower := true }
    (Acts (dev .c) 0 .c [4] ∧ ((dev .c).core 0).lampClass ≠ 0 ∧ ((dev .c).core 0).stop = false ∧ (dev .c).holdsLamp 0 = false) ∧
    (Acts n 0 .c [4] ∧ (n.core 0).lampClass = 0) ∧
    Acts h 0 .c [4] ∧ h.holdsLamp 0 = true ∧ (h.core 0).heavyRunning = false ∧ (h.shaft (shaftOf 0)).reqs = [] := by
  unfold Acts; decide +kernel

/-! State registers, traps and the handler -/

/-- R74: the first register of no number, the first privileged one, and the handler that may write it. -/
theorem test_meets_StateRegisters :
    (Acts (dev .c) 0 .c [1] ∧ sregAssigned 4 = false ∧ sregAssigned 0x100 = true ∧ ¬ (((dev .c).core 0).priv = true ∧ StreamId.c = .c)) ∧
    Acts (inHandler (dev .c)) 0 .c [1] ∧ ((inHandler (dev .c)).core 0).priv = true ∧ ((inHandler (dev .c)).reg 0 .c 1).toNat < 2 ^ 57 ∧
    2 ^ 57 ≤ ((onCore (inHandler (dev .c)) fun c => { c with hregs := bank (-1) 3 }).reg 0 .c 1).toNat := by
  unfold Acts; decide +kernel

theorem test_meets_TrapEntry : Interruptible (dev .c) 0 ∧ (0x17 : Nat) ≠ 0x15 ∧ NoNextWaits (dev .c) 0 :=
  ⟨by unfold Interruptible; decide +kernel, by decide, no_next_waits (by decide +kernel)⟩

/-- R190: the A stream of core 0 waits in the PHNEXT that signalled phase 0 of phaser 1. -/
theorem test_meets_TrapStopsNext :
    let m : Participant := ⟨0, .a, true, true, 1, none, 0, 1⟩
    let s := onStream ((dev .c).setPhaser 0 1 { phaser1 0 [m] with gates := [⟨0, .a, 0, 0, 1⟩] }) .a fun x => { x with wait := some (.phase 1 0 (some 4), 0) }
    Interruptible s 0 ∧ (s.stream 0 .a).wait = some (.phase 1 0 (some 4), 0) ∧
      (∀ y, y ≠ .a → ∀ n ph r m, (s.stream 0 y).wait ≠ some (.phase n ph (some r), m)) ∧
      s.member 0 .a (s.phaser (clusterOf 0) 1) = some m ∧ m.cursor = (0 + 1) % 2 ^ 32 := by
  refine ⟨by unfold Interruptible; decide +kernel, by decide +kernel, ?_, by decide +kernel, by decide⟩
  intro y hy n ph r m
  have : ∀ y, y ≠ StreamId.a → ((onStream ((dev .c).setPhaser 0 1 { phaser1 0 [⟨0, .a, true, true, 1, none, 0, 1⟩] with gates := [⟨0, .a, 0, 0, 1⟩] }) .a
      fun x => { x with wait := some (.phase 1 0 (some 4), 0) }).stream 0 y).wait = none := by
    intro y hy; cases y <;> first | exact absurd rfl hy | decide +kernel
  intro h
  exact absurd ((this y hy).symm.trans h) (by simp)

theorem test_meets_TrapEntryEvent :
    let x : TrapRec := ⟨0x17, 1, .t, 0x1000, 0, 5⟩
    let w : TrapRec := ⟨0x15, 1, .c, 0x1000, 0, 5⟩
    let s (y : TrapRec) := onCore (dev .c) fun c => { c with raised := some y }
    ∀ y ∈ [x, w], ((s y).core 0).raised = some y ∧ ((s y).core 0).acknowledged = true ∧ ((s y).core 0).priv = false ∧
      ((s y).core 0).stop = false ∧ ((s y).core 0).trapvec ≠ 0 ∧ ((s y).core 0).failed = false ∧ ((s y).core 0).trapBad = false ∧ (s y).clocked 0 = true := by
  decide +kernel

/-- R215: CHK of a register that is zero, and of one that is not. -/
theorem test_meets_UserTraps :
    Acts (devOf .c 0 0) 0 .c [1] ∧ Interruptible (devOf .c 0 0) 0 ∧ (devOf .c 0 0).reg 0 .c 1 = 0 ∧
    Acts (dev .c) 0 .c [1] ∧ Interruptible (dev .c) 0 ∧ (dev .c).reg 0 .c 1 ≠ 0 := by
  unfold Acts Interruptible; decide +kernel

/-- R366: no trap held; A and H hold one each; outside the handler; and another stream. -/
theorem test_meets_TrapReturn :
    let h := inHandler (dev .c)
    let g := onStream (onStream h .a fun x => { x with held := some ⟨6, 0, .a, 0x1000, 0, 5⟩ }) .h fun x => { x with held := some ⟨7, 0, .h, 0x1000, 0, 5⟩ }
    let ready (s : State) : Prop := s.turn = some (0, .c) ∧ (s.core 0).priv = true ∧ (s.stream 0 .c).accesses = [] ∧ (s.core 0).trapvec ≠ 0 ∧
      (s.core 0).trapBad = false
    (ready h ∧ ∀ x ∈ streamIds, (h.stream 0 x).held = none) ∧
    (ready g ∧ (g.stream 0 .a).held = some ⟨6, 0, .a, 0x1000, 0, 5⟩ ∧ (g.stream 0 .c).held = none ∧ (g.stream 0 .t).held = none) ∧
    (let z := (onCore h fun c => { c with stop := true }).setShaft 0 { Shaft.reset with lower := true, reqs := [1, 2048] }
     ready z ∧ (∀ x ∈ streamIds, (z.stream 0 x).held = none) ∧ (z.core 0).stop = true ∧ z.clocked 0 = true ∧ z.holdsLamp 0 = true ∧
      ∀ j ∈ (z.shaft (shaftOf 0)).reqs, j = twinOf 0 ∨ j = calRequest) ∧
    ((dev .c).turn = some (0, .c) ∧ ((dev .c).core 0).priv = false) ∧ (dev .t).turn = some (0, .t) ∧ StreamId.t ≠ .c := by decide +kernel

theorem test_meets_CoreHalts :
    let h := inHandler (dev .c)
    let d := onCore h fun c => { c with halting := true }
    let o := owing d .t (access .store [.scratch 0 64] 0)
    let f := onCore (dev .c) fun c => { c with failed := true }
    let g := owing f .t (access .store [.scratch 1 64] 0)
    (h.turn = some (0, .c) ∧ (h.core 0).priv = true) ∧
    (∀ x ∈ [d, o, f, g], x.clocked 0 = true) ∧
    ((d.core 0).failed = false ∧ (d.core 0).halting = true ∧ (d.core 0).operationsDone = true ∧ (d.core 0).stop = false) ∧
    (let e := onCore d fun c => { c with stop := true }
     (e.core 0).operationsDone = true ∧ (e.core 0).stop = true ∧ e.clocked 0 = true ∧ e.holdsLamp 0 = false) ∧
    ((o.core 0).failed = false ∧ (o.core 0).halting = true ∧ (o.core 0).operationsDone = false) ∧
    ((f.core 0).failed = true ∧ (f.core 0).acknowledged = true) ∧ (g.core 0).failed = true ∧ (g.core 0).acknowledged = false := by decide +kernel

theorem test_meets_DoubleFault :
    ((inHandler (dev .c)).core 0).priv = true ∧ ((inHandler (dev .c)).core 0).point = some (point1 0) ∧
      ((inHandler (dev .c)).record (point1 0).recNo).arming = (point1 0).arming ∧ 0 ∈ crewCores (point1 0).kind (point1 0).base ∧
    (let g (v : Word) (b : Bool) := onStream (onCore (inHandler (dev .c)) fun c => { c with trapvec := v, trapBad := b }) .a fun x =>
      { x with held := some ⟨6, 0, .a, 0x1000, 0, 5⟩ }
    ∀ u ∈ [g 0 false, g 0x2000 true], u.turn = some (0, .c) ∧ (u.core 0).priv = true ∧ (u.stream 0 .c).accesses = [] ∧
      (u.stream 0 .a).held.isSome = true ∧ ((u.core 0).trapvec = 0 ∨ (u.core 0).trapBad = true)) ∧
    let s (v : Word) (b : Bool) := onCore (dev .c) fun c => { c with raised := some ⟨0x17, 1, .t, 0x1000, 0, 5⟩, trapvec := v, trapBad := b }
    ∀ u ∈ [s 0 false, s 0x2000 true], (u.core 0).raised.isSome = true ∧ (u.core 0).acknowledged = true ∧ (u.core 0).priv = false ∧
      (u.core 0).stop = false ∧ (u.core 0).failed = false ∧ u.clocked 0 = true ∧ ((u.core 0).trapvec = 0 ∨ (u.core 0).trapBad = true) := by decide +kernel

/-- R148: bank 63 in its mode, in another, and refused where one cache bank would be left. -/
theorem test_meets_BankSwitch :
    let s := inHandler (dev .c)
    let few := s.setCluster 0 { Cluster.reset with bankMode := (List.range 62).map fun b => (b, 1) }
    let ready (s : State) : Prop := s.turn = some (0, .c) ∧ (s.core 0).priv = true ∧ (s.stream 0 .c).wait = none ∧
      tfind (s.cluster 0).bankBusy 63 = none ∧ (s.cluster 0).isShadow 63 = false ∧
      s.bankAhead 0 63 (s.arrival 0 .c (.bank 63 false)) = false
    (ready s ∧ tget 0 (s.cluster 0).bankMode 63 = 0 ∧ (s.cluster 0).bankRefused 63 1 = false) ∧
    ready few ∧ tget 0 (few.cluster 0).bankMode 63 ≠ 1 ∧ (few.cluster 0).bankRefused 63 1 = true := by decide +kernel

theorem test_meets_BankSwitchEnds :
    let s := (dev .c).setCluster 0 { Cluster.reset with bankBusy := [(5, 1)] }
    tfind (s.cluster 0).bankBusy 5 = some 1 ∧ (s.cluster 0).drained 5 = true ∧
      (s.cluster 0).stopped = false ∧ ∀ x ∈ s.pcbs, x.2.clWait = none := by decide +kernel

theorem test_meets_StallEvents :
    ((dev .c).core 0).point = some (point1 0) ∧ Interruptible (dev .c) 0 ∧ (point1 0).kind = 0 ∧ (point1 0).base = 0 ∧
      (dev .c).watchdogCounts 0 = true := by unfold Interruptible; decide +kernel

/-! The vector and the matrix unit -/

/-- Tiles 1 and 2 full of FP32 elements, 128 x 64, and tile 3 empty alike. -/
def tiles (fmt cols : Nat) (s : State) : State :=
  let t (full : Bool) : Tile := { Tile.reset with fmt := fmt, cols1 := cols - 1, full := full }
  onCore s fun c => ((c.setTile 1 (t true)).setTile 2 (t true)).setTile 3 (t false)

/-- R221: TADD t3,t1,t2 with the unit free, with it busy, from its wait, and with a tile at the tile count. -/
theorem test_meets_TileIssue :
    let i : Instr := .tadd 24 8 16
    let s := tiles 0 64 (dev .t)
    let busy := onCore s fun c => { c with vec := some ⟨i, 0, 0, 0, 16⟩ }
    let few := onCore s fun c => { c with ntiles := 8 }
    let j : Instr := .tadd 24 64 16
    (Passes (s.core 0) i 0 0 ∧ VectorReady s 0 i ∧ ¬ atOnce i) ∧
    (Passes (busy.core 0) i 0 0 ∧ VectorIssues busy 0 i ∧ (busy.core 0).vec ≠ none) ∧
    (few.stream 0 .t).wait = none ∧ few.anyPending 0 .t (vecRegs j) = false ∧
      ((vecForm (.tmov 64 8)).uses.head?.map fun u => u.tile) = some 8 ∧ (few.core 0).ntiles ≤ 8 ∧ few.turn = some (0, .t) := by
  refine ⟨⟨by simp only [Passes]; decide +kernel, vector_ready (by decide +kernel), by simp only [atOnce]; decide⟩,
    ⟨by simp only [Passes]; decide +kernel, ⟨by decide +kernel, ?_, by decide +kernel, by decide +kernel⟩, by decide +kernel⟩, by decide +kernel⟩
  have : ((onCore (tiles 0 64 (dev .t)) fun c => { c with vec := some ⟨.tadd 24 8 16, 0, 0, 0, 16⟩ }).stream 0 .t).wait = none := by decide +kernel
  intro o n h
  exact absurd (this.symm.trans h) (by simp)

/-- R62: TADD t3,t1,t2 waits to claim its tiles, and may. -/
theorem test_meets_TileRetry :
    let o : VecOp := ⟨.tadd 24 8 16, 0, 0, 0, 16⟩
    let w := onStream (tiles 0 64 (dev .t)) .t fun x => { x with wait := some (.claim o, 0) }
    (w.stream 0 .t).wait = some (.claim o, 0) ∧ w.turn = some (0, .t) ∧ w.runnable 0 .t = true ∧ Passes (w.core 0) o.instr o.s1 o.s2 ∧
      (w.core 0).vec = none ∧ (w.core 0).accepts (vecClaims o.instr) = true ∧ ¬ atOnce o.instr := by
  simp only [Passes, atOnce]; decide +kernel

theorem test_meets_TileClaims :
    let us := vecClaims (.tadd 24 9 16)
    let c := (tiles 0 64 (dev .t)).core 0
    (us.map fun u => u.tile).Nodup ∧ c.accepts us = true ∧ ∀ u ∈ us, (c.tile u.tile).override = none := by decide +kernel

/-- R237, R238, R241: element (127, 63) of tile 1; the last entry of the statistics; the largest descriptor. -/
theorem test_meets_TileImmediates :
    let s := tiles 0 64 (devOf .t 0x007F003F 64)
    let e := tiles 0 64 (devOf .t 1023 64)
    let d := tiles 0 64 (devOf .t 128 64)
    let busy := onCore d fun c => c.setTile 1 { c.tile 1 with reads := 1 }
    (Acts s 0 .t [2, 1] ∧ (s.core 0).vec = none ∧ (s.stream 0 .t).wait = none ∧
      Passes (s.core 0) (.tget 8 2 1) (s.reg 0 .t 2) (s.reg 0 .t 1)) ∧ VectorReady s 0 (.tget 8 2 1) ∧
    (Passes (s.core 0) (.tset 8 2 1) (s.reg 0 .t 2) (s.reg 0 .t 1) ∧ LegalTile ((s.core 0).tile 1)) ∧ VectorReady s 0 (.tset 8 2 1) ∧
    (Acts e 0 .t [1] ∧ (e.reg 0 .t 1).toNat < 1024 ∧ (e.core 0).point = some (point1 0) ∧
      (e.record (point1 0).recNo).arming = (point1 0).arming) ∧ VectorReady e 0 (.tstats 8 1) ∧
    (Acts d 0 .t [1, 2] ∧ 1 < (d.core 0).ntiles ∧ ((d.core 0).tile 1).claimed = false ∧ 1 ≤ (d.reg 0 .t 1).toNat ∧ (d.reg 0 .t 1).toNat ≤ 128 ∧
      1 ≤ (d.reg 0 .t 2).toNat ∧ (d.reg 0 .t 2).toNat ≤ 128 ∧ (d.reg 0 .t 2).toNat * fmtBits 0 ≤ 2048) ∧
    Acts busy 0 .t [1, 2] ∧ 1 < (busy.core 0).ntiles ∧ ((busy.core 0).tile 1).claimed = true := by
  refine ⟨?_, vector_ready (by decide +kernel), ?_, vector_ready (by decide +kernel), ?_, vector_ready (by decide +kernel), ?_⟩ <;>
    (try unfold Acts) <;> (try unfold LegalTile) <;> (try simp only [Passes]) <;> decide +kernel

/-- R237: TDESC at work on tile 1, unclaimed and read by another unit. -/
theorem test_meets_TileDescribed :
    let o : VecOp := ⟨.tdesc 8 1 2 0, 128, 64, 0, 16⟩
    let s := onCore (tiles 0 64 (dev .t)) fun c => { c with vec := some o }
    let busy := onCore s fun c => c.setTile 1 { c.tile 1 with reads := 1 }
    ((s.core 0).vec = some o ∧ o.instr = .tdesc 8 1 2 0 ∧ ((s.core 0).tile 1).claimed = false ∧ s.clocked 0 = true ∧
      (s.core 0).raised = none ∧ 1 < (s.core 0).ntiles) ∧
    (busy.core 0).vec = some o ∧ ((busy.core 0).tile 1).claimed = true := by decide +kernel

/-- R237: it has its new shape when the vector unit completes, and not before. -/
theorem test_tdesc :
    let s := tiles 0 64 (devOf .t 128 3)
    let t := after (exec (.tdesc 8 1 2 0) s)
    let u := after (exec (.vectorComplete 0) t)
    ((t.core 0).tile 1).cols1 = ((s.core 0).tile 1).cols1 ∧ ((u.core 0).tile 1).cols1 = 2 ∧ (u.core 0).vec = none := by decide +kernel

/-- R35, R36: 3/2 is a code of BF16, and stands for 3/2. -/
theorem test_meets_Numbers : IsReal (codeVal 1 0x3FC0) (3 / 2) ∧ (1 : Nat) ∈ numeric ∧ (0x3FC0 : Nat) < 2 ^ codeBits 1 ∧
    (2 : Nat) ∈ [0, 1, 2, 3, 4, 5, 6] ∧ (255 : Nat) < 256 ∧ codeVal 0 0x7F800000 = .inf false ∧ codeVal 0 0x7FC00000 = .nan false := by
  refine ⟨⟨false, 192, -7, by decide +kernel, by norm_num⟩, by decide, by decide, by decide, by decide, by decide +kernel, by decide +kernel⟩

/-- R43: 1/4 is no E2M1: that is the half of its least value. -/
theorem test_meets_StochasticRounding : (3 : Nat) ∈ [1, 2, 3] ∧ (0x3E800000 : Nat) < 2 ^ 32 ∧
    IsReal (codeVal 0 0x3E800000) (1 / 4) ∧ ∀ d, ¬ IsReal (codeVal 3 d) (1 / 4) := by
  refine ⟨by decide, by decide, ⟨false, 8388608, -25, by decide +kernel, by norm_num⟩, ?_⟩
  intro d ⟨s, m, e, h, hx⟩
  have form : ∃ (n : Nat) (m1 : Nat) (b : Bool), codeVal 3 d = .fin b m1 (-1 + (n : Int)) := by
    by_cases z : d / 2 % 4 = 0
    · exact ⟨0, d % 2, d / 8 % 2 == 1, by simp [codeVal, isFloat, floatVal, floatFmt, z]⟩
    · exact ⟨d / 2 % 4 - 1, 2 + d % 2, d / 8 % 2 == 1, by simp [codeVal, isFloat, floatVal, floatFmt, z]⟩
  obtain ⟨n, m1, b, hv⟩ := form
  rw [hv] at h
  obtain ⟨rfl, rfl, rfl⟩ := Val.fin.inj h
  rw [zpow_add₀ (by norm_num), zpow_natCast] at hx
  have key : ∀ k : ℝ, (1 / 4 : ℝ) = k * m1 * ((2 : ℝ) ^ (-1 : Int) * 2 ^ n) → (1 : ℝ) = k * ((2 * m1 * 2 ^ n : Nat) : ℝ) := by
    intro k hk
    push_cast
    norm_num at hk ⊢
    linarith
  have h1 := key _ hx
  cases b with
  | false =>
    norm_num at h1
    have : (1 : Nat) = 2 * m1 * 2 ^ n := by exact_mod_cast h1
    have : (1 : Nat) = 2 * (m1 * 2 ^ n) := by rw [← mul_assoc]; exact this
    omega
  | true =>
    have : (0 : ℝ) ≤ ((2 * m1 * 2 ^ n : Nat) : ℝ) := Nat.cast_nonneg _
    rw [if_pos rfl] at h1
    linarith

/-- R46, R228: sums of terms that are finite, that hold a NaN, and of opposite infinities. -/
theorem test_meets_Arithmetic : List.Forall₂ IsReal [.fin false 3 0, .fin true 3 0] [3, -3] ∧ (Val.nan true).isNan = true ∧
    IsReal (.fin true 0 0) 0 ∧ IsReal (codeVal 0 0x40800000) 4 := by
  refine ⟨.cons ⟨false, 3, 0, rfl, by norm_num⟩ (.cons ⟨true, 3, 0, rfl, by norm_num⟩ .nil), rfl, ⟨true, 0, 0, rfl, by norm_num⟩,
    ⟨false, 8388608, -21, by decide +kernel, by norm_num⟩⟩

/-- A vector-unit instruction at work: TADD t3,t1,t2, TCVT t3,t1 and TRSUM of tile 1 into a tile of its rows. -/
theorem test_meets_TileResults :
    let s (i : Instr) := onCore (tiles 0 64 (dev .t)) fun c => { c with vec := some ⟨i, 0, 0, 0, 16⟩ }
    ∀ i ∈ [Instr.tadd 24 8 16, .tcvt 24 8 0 0 0, .trsum 24 8, .tmov 24 8], ((s i).core 0).vec = some ⟨i, 0, 0, 0, 16⟩ ∧
      ((s i).core 0).raised = none ∧ (s i).clocked 0 = true ∧ ((vecForm i).dst.map fun d => d.tile) = some 3 ∧ LegalTile (((s i).core 0).tile 3) := by
  unfold LegalTile; decide +kernel

theorem test_meets_TileResults_passes :
    let c := (tiles 0 64 (dev .t)).core 0
    Passes c (.tadd 24 8 16) 0 0 ∧ Passes c (.tcvt 24 8 0 0 0) 0 0 ∧ Passes c (.trsum 24 8) 0 0 ∧ ¬ atOnce (.tmov 24 8) := by
  simp only [Passes, atOnce]; decide +kernel

/-- R44: TQNT t3,t1 into E4M3. -/
theorem test_meets_Quantisation :
    let o : VecOp := ⟨.tqnt 24 8 0, 0, 0, 0, 16⟩
    let s := onCore (tiles 0 64 (dev .t)) fun c =>
      { c.setTile 3 { c.tile 3 with fmt := 2 } with vec := some o }
    (s.core 0).vec = some o ∧ (s.core 0).raised = none ∧ s.clocked 0 = true ∧ LegalTile ((s.core 0).tile 3) ∧ Passes (s.core 0) o.instr 0 0 := by
  unfold LegalTile; simp only [Passes]; decide +kernel

/-- A matrix operation at the head of the unit. -/
def matOp (i : Instr) (started ready : Bool) : MatOp := ⟨i, 0, 0x7F7FFFFF, started, 0, ready, 0x1000, 0, 0, 0⟩

/-- R221: room for a fourth instruction, a fifth, and a launch of lamp class none; the layout of TDRAINM. -/
theorem test_meets_MatrixIssue :
    let s := tiles 1 128 (dev .t)
    let three := onCore s fun c => { c with mat := List.replicate 3 (matOp (.taclr 0) false false) }
    let four := onCore s fun c => { c with mat := List.replicate 4 (matOp (.taclr 0) false false) }
    let none' := onCore s fun c => { c with point := some { point1 0 with lamp := 0 } }
    let dm := onCore s fun c => { c with point := some { point1 0 with layouts := [entry 0 0 0 128 4] } }
    (three.turn = some (0, .t) ∧ (three.core 0).mat.length < 4 ∧ 2 < (three.core 0).ntiles ∧ (three.core 0).lampClass ≠ 0) ∧
    ((three.core 0).ntiles ≤ (0xF8 : BitVec 8).toNat / 8 ∧ (0x08 : BitVec 8).toNat / 8 < (three.core 0).ntiles) ∧
    (four.turn = some (0, .t) ∧ 4 ≤ (four.core 0).mat.length ∧ four.anyPending 0 .t [3] = false) ∧ (none'.core 0).lampClass = 0 ∧
    dm.anyPending 0 .t [3] = false ∧ dm.layout 0 0 false true true = .ok (parseLayout 0 (entry 0 0 0 128 4)) ∧
      (parseLayout 0 (entry 0 0 0 128 4)).space ∈ [0, 1, 2, 4] ∧ (parseLayout 0 (entry 0 0 0 128 4)).efmt = (0 : BitVec 1).toNat := by
  decide +kernel

/-- R231: a product that may start, and one of which the first block is due. -/
theorem test_meets_MatrixProducts :
    let i : Instr := .tmma 0 8 16
    let s (started : Bool) := (onCore (tiles 1 128 (dev .t)) fun c => { c with mat := [matOp i started false] }).setShaft 0 { Shaft.reset with lower := true }
    let a := s false
    let b := s true
    (a.unitsRun 0 = true ∧ a.holdsLamp 0 = true ∧ a.paceReady 0 .t = true ∧ (a.core 0).accepts (matUses i) = true ∧
      ((a.core 0).tile 1).fmt ∈ [1, 2, 3, 4] ∧ ((a.core 0).tile 2).fmt ∈ [1, 2, 3, 4] ∧ TileField.view 8 < 2 ∧ TileField.view 16 < 2 ∧
      (((a.core 0).tile 1).shape 0).2 = (((a.core 0).tile 2).shape 0).1) ∧
    (b.core 0).mat = matOp i true false :: [] ∧ ((b.core 0).tile 1).rows ≤ 128 ∧ ((b.core 0).tile 1).cols ≤ 128 ∧
      ((b.core 0).tile 2).rows ≤ 128 ∧ ((b.core 0).tile 2).cols ≤ 128 ∧ TableWf 0 ((b.core 0).acc 0).elems := by decide +kernel

/-- R232, R234: TACLR and TDRAIN to tile 3, to be started and to be completed. -/
theorem test_meets_MatrixCompletes :
    let i : Instr := .tdrain 0 24 0 0 0 1
    let s (j : Instr) (b : Bool) := onCore (tiles 1 128 (dev .t)) fun c => { c with mat := [matOp j b b] }
    (∀ j ∈ [i, .taclr 0], ∀ b ∈ [true, false], ((s j b).core 0).mat = matOp j b b :: [] ∧ ((s j b).core 0).raised = none ∧
      (s j b).unitsRun 0 = true ∧ (s j b).completes 0 = true ∧ ((s j b).core 0).accepts (matUses j) = true) ∧
    (((s i false).core 0).tile 3).fmt = [0, 1, 2, 5].getD (1 : BitVec 2).toNat 0 ∧ LegalTile (((s i true).core 0).tile 3) := by
  unfold LegalTile; decide +kernel

/-- R73, R233: a drain shape of 2 x 17 into 2 x 16 elements of core scratch, from a start and from an end. -/
theorem test_meets_DrainToMemory :
    let y := parseLayout 0 (entry 0 0 0 16 4)
    let i : Instr := .tdrainm 0 0 3 0 0
    let s (b : Bool) := onCore (dev .t) fun c =>
      { c with m0 := { c.m0 with rows := 1, cols := 17 }, mat := [matOp i b b], point := some { point1 0 with layouts := [entry 0 0 0 16 4] } }
    (∀ b ∈ [false, true], ((s b).core 0).mat = matOp i b b :: [] ∧ (s b).layout 0 0 false true true = .ok y ∧ y.space = 0 ∧
      ((s b).core 0).point.map (fun p => p.arming == ((s b).record p.recNo).arming) = some true ∧ y.efmt = (0 : BitVec 1).toNat) ∧
    ((s false).unitsRun 0 = true ∧ ((s false).core 0).accessesBefore .t 0 = false ∧ TableWf 0 ((s false).core 0).scratch) ∧
    (∀ j ∈ List.range 17, (cellIn y 0 0 j ↔ j < 16) ∧ cellAt y 0 0 j = 4 * j) ∧ 64 ≤ ((s false).core 0).scratchSize ∧
    (s true).completes 0 = true ∧ ((s true).core 0).raised = none := by
  unfold cellIn; decide +kernel

/-- R211: two XSWs of one tile, of two tiles, and an exchange in progress. -/
theorem test_meets_TileExchange :
    let s := dev .t
    let w (t v : Nat) : State := (s.setStream 0 .t { s.stream 0 .t with wait := some (.xsw t, 0) }).setStream 1 .t
      { s.stream 1 .t with wait := some (.xsw v, 1) }
    let x := (s.setCore 0 { s.core 0 with xsw := some 3 }).setCore 1 { s.core 1 with xsw := some 3 }
    s.turn = some (0, .t) ∧ ((w 3 3).waitingXsw 0 = some 3 ∧ (w 3 3).waitingXsw 1 = some 3 ∧ ((w 3 3).core 0).ntiles = 24 ∧
      ((w 3 3).core 1).ntiles = 24 ∧ (((w 3 3).core 0).tile 3).claimed = false ∧ (((w 3 3).core 1).tile 3).claimed = false) ∧
    ((w 3 23).waitingXsw 0 = some 3 ∧ (w 3 23).waitingXsw 1 = some 23) ∧
    x.clocked 0 = true ∧ (x.core 0).xsw = some 3 ∧ (x.core 1).xsw = some 3 ∧ (x.core 0).raised = none ∧ (x.core 1).raised = none := by decide +kernel

/-! The array engine -/

/-- R70: ap.nv at its bounds and outside, a register that is not written, reserved numbers, and ap.stat with an operation in
progress. -/
theorem test_meets_ArrayParameters :
    let o : ArrOp := ⟨.azero 0 0, 0, 0, apReset, 0, 0, false, false, false, [], false, false, 0x1000, 0, 0⟩
    let b := onCore (dev .a) fun c => { c with arr := [o] }
    Acts (devOf .a 128 0) 0 .a [1] ∧ InRange 0 ((devOf .a 128 0).reg 0 .a 1) ∧ ¬ InRange 0 ((devOf .a 129 0).reg 0 .a 1) ∧
      InRange 16 ((devOf .a 0x20000000200 0).reg 0 .a 1) ∧ ¬ InRange 16 ((devOf .a 0x20000000201 0).reg 0 .a 1) ∧
      InRange 15 ((devOf .a 23 0).reg 0 .a 1) ∧ ¬ InRange 15 ((devOf .a 24 0).reg 0 .a 1) ∧
      ((dev .a).core 0).arr = [] ∧ (b.core 0).arr ≠ [] ∧ Acts b 0 .a [1] := by
  unfold Acts; simp only [InRange]; decide +kernel

/-- A panel of partition 0, calibrated. -/
def panel1 : Panel := { Panel.reset with calibrated := true, owner := some 0 }

/-- Panel 31 in service, tiles 4 to 11 BF16 and 128 columns wide, the first quad full, and the lamp held. -/
def arrays (s : State) : State :=
  let t (full : Bool) : Tile := { Tile.reset with full := full }
  (onCore s fun c => { c with
    panels := [(31, panel1)],
    tiles := [(4, t true), (5, t true), (6, t true), (7, t true), (8, t false), (9, t false), (10, t false), (11, t false)] }).setShaft 0
    { Shaft.reset with lower := true }

/-- R256: AFWD p31,q1,q2 whose panel is free, one whose panel is at work, a panel outside the set, and a register that holds 32. -/
theorem test_meets_ArrayIssue :
    let i : Instr := .afwd 31 1 0 2 0 0
    let s := arrays (dev .a)
    let busy := onCore s fun c => { c with arr := [⟨i, 31, 0, apReset, 0, 0, false, false, false, [], false, false, 0, 0, 0⟩] }
    let out := onCore s fun c => { c with point := some { point1 0 with panels := 0x7FFFFFFF } }
    let far := arrays (devOf .a 32 0)
    (s.turn = some (0, .a) ∧ arrayForm i = some (31, 0) ∧ (0 : BitVec 1) ≠ 1 ∧ (s.core 0).panelFree 31 = true ∧
      (s.core 0).accepts (arrUses i) = true ∧ s.paceReady 0 .a = true ∧ s.holdsLamp 0 = true ∧ (s.core 0).arrOperands i = none) ∧
    (∀ j q b m, (s.stream 0 .a).wait ≠ some (.panel j q b, m)) ∧ PanelReady s 0 31 i ∧ ArrayReady s 0 31 i ∧
    (PanelReady busy 0 31 i ∧ (busy.core 0).panelFree 31 = false ∧ busy.turn = some (0, .a)) ∧
    ((out.core 0).point = some { point1 0 with panels := 0x7FFFFFFF } ∧ (0x7FFFFFFF : BitVec 32).getLsbD 31 = false) ∧
    far.anyPending 0 .a [1] = false ∧ (far.reg 0 .a 1).toNat = 32 := by
  refine ⟨by decide +kernel, fun j q b m h => ?_, ⟨⟨_, rfl, by decide +kernel⟩, by decide +kernel⟩, by unfold ArrayReady; decide +kernel,
    ⟨⟨⟨_, rfl, by decide +kernel⟩, by decide +kernel⟩, by decide +kernel, by decide +kernel⟩, by decide +kernel, by decide +kernel, by decide +kernel⟩
  have : ((arrays (dev .a)).stream 0 .a).wait = none := by decide +kernel
  exact absurd (this.symm.trans h) (by simp)

/-- R256: the same instruction that waits at step 10, whose panel is free now. -/
theorem test_meets_ArrayRetry :
    let i : Instr := .afwd 31 1 0 2 0 0
    let w := onStream (arrays (dev .a)) .a fun x => { x with wait := some (.panel i 31 0, 0) }
    w.runnable 0 .a = true ∧ w.turn = some (0, .a) ∧ (w.stream 0 .a).wait = some (.panel i 31 0, 0) ∧ arrayForm i = some (31, 0) ∧
      ArrayReady w 0 31 i ∧ (w.core 0).arrOperands i = none := by
  unfold ArrayReady; decide +kernel

/-- An array operation on panel 31. -/
def arrOp (i : Instr) (ready : Bool) : ArrOp := ⟨i, 31, 0, apReset, 0, 0, false, false, false, [], ready, false, 0x1000, 0, 0⟩

/-- R274: an operation at each kind of stop unit: AFWD, AUPD, AXFR and ASEED. -/
theorem test_meets_ArrayUnits :
    let s (i : Instr) := onCore (arrays (dev .a)) fun c => { c with arr := [arrOp i false] }
    (∀ i ∈ [Instr.afwd 31 1 0 2 0 0, .aupd 31 1 0 1 0 0, .axfr 31 0, .aseed 31 0],
      ((s i).core 0).opOf 31 = some (arrOp i false) ∧ (s i).unitsRun 0 = true ∧ (s i).holdsLamp 0 = true ∧
        (arrOp i false).reading = false) ∧
    pulses (.afwd 31 1 0 2 0 0) = false ∧ (apReset.toList.getD 8 0).toNat + (apReset.toList.getD 9 0).toNat ≤ 512 ∧
    frozenRow (apReset.set 17 1) 0 = true := by
  decide +kernel

/-- R270, R274: an operation on panel 31 at a stop unit, and what the statements of the array ask of its parameters, its panel and its
destination quad, tiles 8 to 11. -/
theorem test_meets_array_claims :
    let s (i : Instr) (units : Nat) := onCore (arrays (dev .a)) fun c => { c with arr := [{ arrOp i false with units := units }] }
    ∀ x ∈ [(Instr.afwd 31 1 0 2 0 0, 127), (.abwd 31 1 0 2 0 0, 0), (.aupd 31 1 0 2 0 0, 0), (.axfr 31 0, 511), (.azero 31 0, 511),
      (.acal 31 2 0 0, 63), (.acal 31 2 0 0, 64), (.acal 31 2 0 0, 575), (.acal 31 2 0 0, 576), (.acal 31 2 0 0, 1087), (.aasy 31 2 0 0, 0),
      (.aprog 31 1 0 0, 511), (.argrw 31 0, 511)],
      AtUnit (s x.1 x.2) 0 31 { arrOp x.1 false with units := x.2 } ∧ (s x.1 x.2).nominal = true := by
  unfold AtUnit; decide +kernel

theorem test_meets_array_operands :
    let c := (arrays (dev .a)).core 0
    WithinRows apReset ∧ WithinCols apReset ∧ LegalPanel (c.panel 31) ∧ LegalQuad c 8 1 127 ∧ (1 : BitVec 3) ≠ 2 ∧
      0 < par apReset 12 ∧ 0 ≤ parFp apReset 2 ∧ 0 ≤ parFp apReset 3 ∧ 0 ≤ parFp apReset 10 ∧ par apReset 9 = 512 ∧ par apReset 14 = 512 ∧
      (c.panel 31).maskHome + 32768 ≤ c.scratchSize := by
  unfold WithinRows WithinCols LegalPanel LegalQuad LegalTile; decide +kernel

/-- R268: a plane of zeros, and one whose nibble 11 is the first that is no code. R271: an RAW32 tile. -/
theorem test_meets_MasksAndHealth :
    let o := arrOp (.amask 31 0 0) false
    let s (l : List Host.Cell) := onCore (arrays (dev .a)) fun c => { c with arr := [o], scratch := l }
    let nibble (l : List Host.Cell) (n : Nat) : Nat := (tget 0 ((s l).core 0).scratch (o.plane + n / 2)).toNat / 16 ^ (n % 2) % 16
    let h := onCore (arrays (dev .a)) fun c => { c.setTile 20 { Tile.reset with fmt := 7, cols1 := 7 } with arr := [arrOp (.astat 31 20 0 0) false] }
    (∀ l ∈ [[], [(5, 0x70)]], AtUnit (s l) 0 31 o ∧ TableWf 0 ((s l).core 0).scratch) ∧ (∀ n, n < 65536 → nibble [] n < 6) ∧
    (6 ≤ nibble [(5, 0x70)] 11 ∧ ∀ n, n < 11 → nibble [(5, 0x70)] n < 6) ∧
    AtUnit h 0 31 (arrOp (.astat 31 20 0 0) false) ∧ h.nominal = true ∧ TableWf 0 ((h.core 0).panel 31).wear ∧ LegalTile ((h.core 0).tile 20) ∧
      ((h.core 0).tile 20).fmt ∈ [5, 7] ∧ 8 ≤ ((h.core 0).tile 20).cols := by
  refine ⟨by unfold AtUnit; decide +kernel, fun n _ => ?_, by decide +kernel, by unfold AtUnit; decide +kernel, by decide +kernel, by decide +kernel,
    by unfold LegalTile; decide +kernel, by decide +kernel, by decide +kernel⟩
  show (0 : Byte).toNat / 16 ^ (n % 2) % 16 < 6
  simp

theorem test_meets_ArrayCompletes :
    let o := arrOp (.afwd 31 1 0 2 0 0) true
    let s := onCore (arrays (dev .a)) fun c => { c with arr := [o] }
    (s.core 0).arr = [o] ∧ o.finished = false ∧ o.ready = true ∧ s.completes 0 = true ∧ (s.core 0).raised = none ∧
      ∀ w ∈ arrUses o.instr, ((s.core 0).tile w.tile).override = none := by decide +kernel

/-! The hoist -/

/-- A copy at the head of the hoist. -/
def copy1 (i : Instr) (started : Bool) (status : Option Nat) : Copy :=
  ⟨i, 0, 0xAB, 8, 1, started, 0, [], status, false, false, 0x1000, 0, 0, 0⟩

/-- R284: fifteen copies and sixteen; a tile at the count; HCPY, HSEND and HFILL with a token register of 31. -/
theorem test_meets_HoistIssue :
    let s := onStream (dev .h) .h fun x => { x with regs := x.regs.set 5 31 }
    let full := onCore s fun c => { c with copies := List.replicate 16 (copy1 (.hpf 2 3 4) false none) }
    let most := onCore s fun c => { c with copies := List.replicate 15 (copy1 (.hpf 2 3 4) false none) }
    (∀ x ∈ hoForms 23 0 0 0 3 4, x.1 ≠ .hpf 0 3 4 → s.turn = some (0, .h) ∧ (∀ n ∈ x.2.1, n < (s.core 0).ntiles) ∧
      s.layout 0 0 x.2.2.1 (!x.2.2.1) false = .ok (parseLayout 0 (entry 64 0 4 16 8)) ∧ (x.1 = .hsta 23 0 0 3 4 ∨ 0 ∈ x.2.2.2)) ∧
    s.anyPending 0 .h [3, 4] = false ∧ s.layout 0 2 true false false = .ok (parseLayout 2 (entry 0x4000 4 4 16 8)) ∧
    (most.core 0).copies.length < 16 ∧ ¬ (full.core 0).copies.length < 16 ∧ (s.core 0).ntiles ≤ (24 : BitVec 5).toNat ∧
    (s.anyPending 0 .h [3, 3 + 1, 3 + 2] = false ∧ (s.reg 0 .h (3 + 2)).toNat < 32 ∧ s.anyPending 0 .h [31] = false) ∧
    (parseLayout 2 (entry 0x4000 4 4 16 8)).space = 4 := by decide +kernel

/-- The remote layout of HSEND needs its device phaser (R72). -/
theorem test_meets_remote_copy :
    let s : State := { dev .h with dphasers := [(0, { Phaser.reset with alloc := true, bytes := true })] }
    (s.layout 0 4 false true false).toOption.map (fun y => y.space) = some 5 ∧ s.layout 0 0 true false false = .ok (parseLayout 0 (entry 64 0 4 16 8)) := by
  decide +kernel

/-- R283: a copy whose checks pass, one that meets cause 0x07, and one that has ended with status 4. -/
theorem test_meets_HoistCopies :
    let i : Instr := .hfill 0 3
    let s (p : Copy) := onCore (dev .h) fun c => { c with copies := [p] }
    let bad : State := onCore (s (copy1 (.hfill 5 3) false none)) fun c =>
      { c with point := some { point1 0 with layouts := List.replicate 6 (entry 64 0 4 16 8 + 0x80000000 * 0x10000000000000000) } }
    let a := s (copy1 i false none)
    let e := s (copy1 i true (some 4))
    ((a.core 0).copies = copy1 i false none :: [] ∧ a.unitsRun 0 = true ∧ (a.core 0).accessesBefore .h 0 = false ∧
      (a.core 0).accepts (copyUses i) = true ∧ a.copyChecks 0 (copy1 i false none) = none) ∧
    (bad.copyChecks 0 (copy1 (.hfill 5 3) false none) = some (7, layoutInfo 5 9)) ∧
    (copy1 i true (some 4)).status = some 4 ∧ e.completes 0 = true ∧ (e.core 0).raised = none := by decide +kernel

/-- R285: the first chunk of HFILL into core scratch, and of HPF. -/
theorem test_meets_HoistChunks :
    let i : Instr := .hfill 0 3
    let p := copy1 i true none
    let s := onCore (dev .h) fun c => { c with copies := [p] }
    let y := s.rawLayout 0 0
    (s.core 0).copies = p :: [] ∧ p.started = true ∧ p.status = none ∧ p.stopped = false ∧ s.unitsRun 0 = true ∧
      y.space = 0 ∧ y.efmt = 4 ∧ ∀ e ∈ p.extRun y y p.coords, ∀ a ∈ e.addr, a < (s.core 0).scratchSize := by decide +kernel

/-- A core with one tile of one row of sixteen INT8 elements, tile 1, three layouts of core scratch and FIFO bank 0, and a started
copy. Layout 0 has 16 elements of 1 byte at 64, 8 bytes apart; 1 the same with a trailer for its row; 2 is FP32; 3 the bank. -/
def moving (i : Instr) : State :=
  onCore (dev .h) fun c => { c.setTile 1 { Tile.reset with fmt := 4, rows1 := 0, cols1 := 15 } with
    copies := [copy1 i true none],
    point := some { point1 0 with layouts := [entry 64 0 4 16 8, entry 512 0 4 16 1 + 2 ^ 95, entry 64 0 0 16 4, entry 0 3 4 16 1,
      BitVec.ofNat 512 (0x4000 + 2 ^ 38 + 2 ^ 57 * 5 + 2 ^ 60 * 4 + 2 ^ 74 * 65 + 2 ^ 98 + 2 ^ 99 + 2 ^ 128 * 16 + 2 ^ 256 * 8)] } }

/-- The elements of the one row, with their places. -/
def row1 (base step bytes : Nat) : List Put :=
  (List.range 16).map fun j => ⟨⟨0, j, some (base + step * j), false⟩, (List.range bytes).map fun b => .scratch 0 (base + step * j + b)⟩

/-- R285: a chunk of each copy is due. -/
theorem test_meets_AtChunk :
    ∀ i ∈ [Instr.hld 1 0 3 8, .hgth 1 0 3 8, .hst 1 0 0 3 8, .hsta 1 0 2 3 8, .hsct 1 0 2 3 8, .hfill 0 3, .hcpy 0 1 3, .hsend 4 0 3, .hld 1 3 3 8],
      AtChunk (moving i) 0 (copy1 i true none) [] ∧ ((moving i).core 0).point.isSome = true := by unfold AtChunk; decide +kernel

theorem test_meets_ChunkElements :
    let y := (moving (.hld 1 0 3 8)).rawLayout 0 0
    LegalTile (((moving (.hld 1 0 3 8)).core 0).tile 1) ∧ y.ndim < 4 ∧ y.ext.length = 4 := by unfold LegalTile; decide +kernel

theorem test_meets_ScratchPlaces :
    let s := moving (.hld 1 0 3 8)
    let y := s.rawLayout 0 0
    y.space ≤ 2 ∧ (∀ e ∈ (row1 64 8 1).map (fun q => q.spot), ∀ a ∈ e.addr, a + 1 ≤ (s.core 0).scratchSize ∧ (s.cluster 0).scratchBanks a 1 = false) := by
  decide +kernel

/-- Places of which none is reached through a system-atomic page. -/
theorem unmixed {ls : List Loc} (h : ls.all (fun x => !x.isDirect) = true) : Unmixed ls := by
  intro a b ha
  have := List.all_eq_true.mp h _ ha
  simp [Loc.isDirect] at this

/-- R280, R282: a row without a trailer and one with; a bad byte in an element, and a trailer of zeros, which fails its check. -/
theorem test_meets_HoistLoads :
    let i : Instr := .hld 1 0 3 8
    let j : Instr := .hld 1 1 3 8
    let s := moving i
    let w := moving j
    let e := onCore s fun c => { c with scratchBad := [(64, true)] }
    let p (s : State) (i : Instr) (l : Nat) := (s.placeRows 0 (copy1 i true none) (s.rawLayout 0 l) (readNeed (copy1 i true none))
      ((copy1 i true none).chunkRows (s.rawLayout 0 l) ((s.core 0).tile 1))).2
    let plain : List PutRow := [⟨0, row1 64 8 1, none⟩]
    let trailed : List PutRow := [⟨0, row1 512 1 1, some (528, (List.range 16).map fun b => .scratch 0 (528 + b))⟩]
    (LegalTile ((s.core 0).tile 1) ∧ (s.rawLayout 0 0).space ≠ 3 ∧ p s i 0 = .ok plain ∧ p e i 0 = .ok plain ∧ p w j 1 = .ok trailed) ∧
    (Unmixed (plain.flatMap rowPlaces) ∧ Unmixed (trailed.flatMap rowPlaces)) ∧
    (∀ q ∈ plain, ∀ x ∈ rowPlaces q, s.readBad 0 x = false) ∧ (∀ q ∈ trailed, ∀ x ∈ rowPlaces q, w.readBad 0 x = false) ∧
    e.readBad 0 (.scratch 0 64) = true ∧
    ¬ TrailerPasses (w.rawLayout 0 1) (List.replicate 16 0) (List.replicate 16 0) ∧ TrailerPasses (w.rawLayout 0 1) (List.replicate 16 0)
      (trailerBytes (w.rawLayout 0 1) 0 (List.replicate 16 0) []) := by
  refine ⟨by unfold LegalTile; decide +kernel, ⟨unmixed (by decide +kernel), unmixed (by decide +kernel)⟩, ?_⟩
  unfold TrailerPasses; decide +kernel

theorem test_meets_HoistStores :
    let i : Instr := .hst 1 0 1 3 8
    let s := moving i
    let qs : List PutRow := [⟨0, row1 512 1 1, some (528, (List.range 16).map fun b => .scratch 0 (528 + b))⟩]
    LegalTile ((s.core 0).tile 1) ∧ (s.rawLayout 0 1).space ≠ 3 ∧ (s.placeRows 0 (copy1 i true none) (s.rawLayout 0 1) (writeNeed (copy1 i true none))
      ((copy1 i true none).chunkRows (s.rawLayout 0 1) ((s.core 0).tile 1))).2 = .ok qs ∧
      Distinct (s.rawLayout 0 1).efmt (held qs) (qs.flatMap fun q => (q.trl.map Prod.snd).getD []) := by
  refine ⟨by unfold LegalTile; decide +kernel, by decide +kernel, by decide +kernel, ?_⟩
  unfold Distinct
  rw [if_neg (by decide +kernel)]
  unfold Apart
  decide +kernel

theorem test_meets_HoistAdds :
    let i : Instr := .hsta 1 0 2 3 8
    let s := moving i
    let y := s.rawLayout 0 2
    let qs : List PutRow := [⟨0, row1 64 4 4, none⟩]
    ((s.core 0).point.map fun p => p.arming == (s.record p.recNo).arming) = some true ∧ y.space ≠ 5 ∧ y.trl = false ∧ y.efmt < 2 ∧ (s.placeRows 0 (copy1 i true none) y (writeNeed (copy1 i true none))
      ((copy1 i true none).chunkRows y ((s.core 0).tile 1))).2 = .ok qs ∧ Apart ((held qs).flatMap fun e => e.locs) ∧
      ∀ e ∈ held qs, ∀ x ∈ e.locs, (s.syncSectors 0 ((held qs).flatMap fun e => e.locs)).locBad x = false := by
  unfold Apart; decide +kernel

theorem test_meets_HoistCopiesMemory :
    let f := moving (.hfill 0 3)
    let s := moving (.hcpy 0 1 3)
    let p : Copy := { copy1 (.hcpy 0 1 3) true none with second := 0 }
    let y := s.rawLayout 0 0
    let z := s.rawLayout 0 1
    let ls := (row1 512 1 1).map fun e => (e, s.readBad 0 (e.locs.headD (.scratch 0 0)))
    ((f.placeRun 0 y (writeNeed (copy1 (.hfill 0 3) true none)) ((copy1 (.hfill 0 3) true none).extRun y y 0)).2 = .ok (row1 64 8 1)) ∧
    (y.space = 0 ∧ z.space = 0 ∧ (s.placeRun 0 z (readNeed p) (p.extRun y z p.second)).2 = .ok (row1 512 1 1) ∧ ∀ e ∈ ls, e.2 = false) ∧
    (let s1 := (s.placeRun 0 z (readNeed p) (p.extRun y z p.second)).1.afterRead 0 false ((row1 512 1 1).flatMap fun e => e.locs)
     (s1.placeRun 0 y (writeNeed p) (p.extRun y y p.coords)).2 = .ok (row1 64 8 1)) ∧
    Unmixed ((row1 512 1 1 ++ row1 64 8 1).flatMap fun e => e.locs) ∧ AtChunk (onCore s fun c => { c with copies := [p] }) 0 p [] ∧
      Distinct y.efmt (row1 64 8 1) [] := by
  refine ⟨by decide +kernel, by decide +kernel, by decide +kernel, unmixed (by decide +kernel), by unfold AtChunk; decide +kernel, ?_⟩
  unfold Distinct
  rw [if_neg (by decide +kernel)]
  unfold Apart
  decide +kernel

/-- R142: a bank in FIFO mode with exactly the sixteen bytes of the chunk. -/
theorem test_meets_HoistBanks :
    let s (i : Instr) := ((moving i).setCluster 0 { Cluster.reset with bankMode := [(0, 2)] }).setFifo 0 0 (List.replicate 16 7)
    let y := (moving (.hld 1 3 3 8)).rawLayout 0 3
    y.space = 3 ∧ y.base < 64 ∧ (s (.hld 1 3 3 8)).askBank 0 0 16 0 true = .serves ∧ (s (.hld 1 3 3 8)).fifoError 0 0 16 = false ∧
      (s (.hst 1 0 3 3 8)).askBank 0 0 16 0 false = .serves := by decide +kernel

/-- R142: two banks in FIFO mode, one of them with sixteen bytes, as layouts 3 and 5; HFILL and HCPY into the empty one, HCPY out of the
other, to memory and to both banks, and HSEND out of it. -/
theorem test_meets_CopyBanks :
    let s (i : Instr) : State := ((onCore (moving i) fun c => { c with
        point := c.point.map fun p => { p with layouts := p.layouts ++ [entry 1 3 4 16 1] } }).setCluster 0
      { Cluster.reset with bankMode := [(0, 2), (1, 2)] }).setFifo 0 0 (List.replicate 16 7)
    let p (i : Instr) : Copy := { copy1 i true none with second := 0 }
    let y (n : Nat) : Layout := (s (.hfill 5 3)).rawLayout 0 n
    (∀ i ∈ [Instr.hfill 5 3, .hcpy 0 3 3, .hcpy 5 0 3, .hcpy 5 3 3, .hcpy 3 3 3, .hsend 4 3 3],
      AtChunk (onCore (s i) fun c => { c with copies := [p i] }) 0 (p i) [] ∧ ((s i).core 0).point.isSome = true) ∧
    ((y 3).space = 3 ∧ (y 3).base = 0 ∧ (y 5).space = 3 ∧ (y 5).base = 1 ∧ (y 0).space = 0 ∧ (y 4).space = 5) ∧
    (runBytes 4 ((p (.hfill 5 3)).extRun (y 5) (y 5) 0) = 16 ∧ runBytes 4 ((p (.hcpy 0 3 3)).extRun (y 0) (y 3) 0) = 16) ∧
    (∀ i ∈ [Instr.hcpy 0 3 3, .hcpy 5 3 3, .hsend 4 3 3], (s i).askBank 0 0 16 0 true = .serves ∧ (s i).fifoError 0 0 16 = false) ∧
    (∀ i ∈ [Instr.hfill 5 3, .hcpy 5 3 3], (s i).askBank 0 1 16 0 false = .serves) ∧ (s (.hcpy 3 3 3)).askBank 0 0 16 0 false = .serves ∧
    (let w := s (.hcpy 5 0 3)
     let q := w.placeRun 0 (y 0) (readNeed (p (.hcpy 5 0 3))) ((p (.hcpy 5 0 3)).extRun (y 5) (y 0) 0)
     q.2 = .ok (row1 64 8 1) ∧ (q.1.afterRead 0 false ((row1 64 8 1).flatMap fun e => e.locs)).askBank 0 1 16 0 false = .serves) := by
  unfold AtChunk; decide +kernel

/-- R413: device 1 behind port 11, and no route to it. -/
theorem test_meets_HoistSends :
    let i : Instr := .hsend 4 0 3
    let n := moving i
    let s : State := { n with routes := [(0, 0x800)], ports := [(11, ⟨2, true, 1, 0⟩)] }
    let y := s.rawLayout 0 4
    y.space = 5 ∧ y.base / 2 ^ 38 % 2 ^ 19 = 1 ∧ (s.rawLayout 0 0).space = 0 ∧ Routed s 1 ∧ n.route 1 = none ∧ ¬ (n.devnumSet = true ∧ 1 = n.devnum) ∧
      (s.draw.placeRun 0 (s.rawLayout 0 0) (readNeed (copy1 i true none)) ((copy1 i true none).extRun y (s.rawLayout 0 0) 0)).2 = .ok (row1 64 8 1) := by
  unfold Routed; decide +kernel

/-! Task queues -/

/-- Queue 3 of cluster 0 enabled for partition 0, its last ticket below 2^32 next, with what stands in it. -/
def withQueue (s : State) (l : List Slot) : State :=
  s.setQueue 3 { TaskQueue.reset with en := true, head := 0xFFFFFFFF, tail := (0xFFFFFFFF + l.length) % 2 ^ 32, slots := l }

/-- A record of eight words. -/
def task : List Word := [0x0100000000000000, 1, 2, 3, 4, 5, 6, 7]

/-- R201: room for a ticket, four tickets held, a ticket held and one not held, a void record, and the first number that is no queue. -/
theorem test_meets_QueueProducers :
    let regs (a : Word) (x : Stream) : Stream := { x with regs := (x.regs.set 1 a).set 8 0x0100000000000000 }
    let s := onStream (withQueue (dev .c) []) .c (regs 3)
    let r := onStream (withQueue (dev .c) [⟨0xFFFFFFFF, none, .reserved, false, 0⟩]) .c fun x =>
      { regs 0x3FFFFFFFF x with tickets := [(3, 0xFFFFFFFF)] }
    let m := onStream r .c fun x => { x with tickets := [] }
    let four := onStream s .c fun x => { x with tickets := [(3, 1), (3, 2), (3, 3), (3, 4)] }
    let far := onStream s .c (regs 512)
    (s.turn = some (0, .c) ∧ s.waiters = [] ∧ NamesQueue s 0 (s.reg 0 .c 1) 3 false ∧ OnChip (s.queue 3) ∧ (s.queue 3).slots.length < 32 ∧
      s.anyPending 0 .c [1, 8] = false ∧ (s.stream 0 .c).tickets.length < 4 ∧ s.anyPending 0 .c (eightRegs 1 8) = false ∧
      (s.reg 0 .c 8).toNat / 2 ^ 56 ≠ 0 ∧ ∀ x ∈ (s.queue 3).slots, x.ticket ≠ (s.queue 3).tail) ∧
    ((r.reg 0 .c 1).toNat = 0xFFFFFFFF + 2 ^ 32 * 3 ∧ NamesQueue r 0 (word 3) 3 false ∧ OnChip (r.queue 3) ∧
      (r.stream 0 .c).tickets.contains (3, 0xFFFFFFFF) = true ∧ (m.stream 0 .c).tickets.contains (3, 0xFFFFFFFF) = false) ∧
    (four.stream 0 .c).tickets.length = 4 ∧ (far.reg 0 .c 1).toNat = 512 ∧ ¬ (s.reg 0 .c 16).toNat / 2 ^ 56 ≠ 0 := by
  unfold NamesQueue OnChip; decide +kernel

/-- R203, R358: a queue of one sump slot, full, with block and with trap; 32 hardware entries, the last of them held and its record
not yet published; a sump slot that a ticket holds, with a faulted put and without. -/
theorem test_meets_SumpSlots :
    let regs (a : Word) (x : Stream) : Stream := { x with regs := (x.regs.set 1 a).set 8 0x0100000000000000 }
    let q : TaskQueue := { TaskQueue.reset with en := true, sspace := true, sbase := 64, slog := 1, head := 5 }
    let of (a : Word) (q : TaskQueue) : State :=
      onStream (((dev .c).setQueue 3 q).setCluster 0 { ((dev .c).setQueue 3 q).cluster 0 with bankMode := [(0, 1)] }) .c (regs a)
    let held : Slot := ⟨5, some 0, .reserved, false, 0⟩
    let full (trap : Bool) := of 3 { q with ftrap := trap, slots := [held, { held with ticket := 6, ring := some 1 }], scount := 2, tail := 7 }
    let chip := of 3 { q with slots := (List.range 32).map fun n => ⟨5 + n, none, .reserved, false, 0⟩, tail := 37 }
    let one (f : Option FaultedPut) := onStream (of 0x300000005 { q with slots := [held], scount := 1, tail := 6, faulted := f }) .c fun x =>
      { x with tickets := [(3, 5)] }
    let freed := of 3 { q with
      slots := [{ held with waits := true, ticket := 6 }], scount := 1, tail := 7, head := 6, freed := [9] }
    let free (s : State) : Prop := s.turn = some (0, .c) ∧ s.waiters = [] ∧ s.anyPending 0 .c [1, 8] = false ∧
      s.anyPending 0 .c (eightRegs 1 8) = false ∧ (s.reg 0 .c 8).toNat / 2 ^ 56 ≠ 0
    (∀ b : Bool, free (full b) ∧ NamesQueue (full b) 0 ((full b).reg 0 .c 1) 3 false ∧ ((full b).queue 3).faulted = none ∧
      2 ^ ((full b).queue 3).slog ≤ ((full b).queue 3).scount ∧ ((full b).stream 0 .c).tickets.length < 4 ∧ ((full b).queue 3).ftrap = b) ∧
    (NamesQueue freed 0 (freed.reg 0 .c 1) 3 false ∧ (freed.queue 3).faulted = none ∧ (freed.queue 3).freed ≠ [] ∧
      RefillsNothing (freed.queue 3) 7) ∧
    (∀ x ∈ [chip, one none, one (some ⟨1, .c, 5, task, 1, 0⟩), freed], free x ∧ (x.queue 3).scount < 2 ^ (x.queue 3).slog ∧
      (x.stream 0 .c).tickets.length < 4 ∧ (x.queue 3).sspace = true ∧ (((∀ y ∈ (x.queue 3).slots, y.waits = false) ∧ (x.queue 3).freed = []) ∨ x = freed) ∧
      (∀ y ∈ (x.queue 3).slots, y.ticket ≠ (x.queue 3).tail) ∧
      (x.cluster 0).scratchBanks (64 + 64 * (((x.queue 3).shead + (x.queue 3).scount) % 2)) 64 = true) ∧
    (NamesQueue chip 0 (chip.reg 0 .c 1) 3 false ∧ (chip.queue 3).faulted = none ∧
      32 ≤ ((chip.queue 3).slots.filter fun x => x.ring.isNone).length) ∧
    ∀ f ∈ [none, some ⟨1, .c, 5, task, 1, 0⟩], ((one f).reg 0 .c 1).toNat = 5 + 2 ^ 32 * 3 ∧ NamesQueue (one f) 0 (word 3) 3 false ∧
      ((one f).stream 0 .c).tickets.contains (3, 5) = true ∧ ((one f).queue 3).slotOf 5 = some held ∧ ((one f).queue 3).faulted = f := by
  unfold NamesQueue
  refine ⟨?_, ⟨?_, ?_, ?_, .inr (.inr ⟨⟨6, some 0, .reserved, true, 0⟩, ?_⟩)⟩, ?_, ?_, ?_⟩ <;> decide +kernel

/-- R202, R361: a record behind two VOID ones, a gap behind one, and an empty queue. -/
theorem test_meets_QueueConsumers :
    let s (l : List Slot) := withQueue (devOf .c 3 0) l
    let v : Slot := ⟨0xFFFFFFFF, none, .void, false, 0⟩
    let w : Slot := ⟨0, none, .entry (task.set 0 5), false, 0⟩
    let x : Slot := ⟨1, none, .entry task, false, 0⟩
    let g : Slot := ⟨0, none, .reserved, false, 0⟩
    (v.state = .void ∧ HoldsVoid w ∧ (task.headD 0).toNat / 2 ^ 56 ≠ 0) ∧
    ∀ l ∈ [[v, w, x], [v, g], []], (s l).turn = some (0, .c) ∧ (s l).waiters = [] ∧ NamesQueue (s l) 0 ((s l).reg 0 .c 1) 3 true ∧ OnChip ((s l).queue 3) ∧
      (s l).anyPending 0 .c (eightRegs 1 24) = false ∧ (24 : Reg).toNat ≤ 24 ∧ ((s l).queue 3).slots = l ∧ task.length = 8 := by
  refine ⟨⟨rfl, .inr ⟨_, rfl, by decide +kernel⟩, by decide +kernel⟩, ?_⟩
  unfold NamesQueue OnChip; decide +kernel

/-- R357, R360: a queue disabled, one without a fault, one whose faulted put may go on, and a core that holds no ticket. -/
theorem test_meets_QueueRegisters :
    let s := dev .c
    let x : FaultedPut := ⟨1, .c, 5, task, 1, 0⟩
    let y : Slot := ⟨5, some 0, .reserved, false, 0⟩
    let f := ((dev .c).setQueue 3 { TaskQueue.reset with en := true, sspace := true, slots := [y], faulted := some x }).setCluster 0
      { ((dev .c).setQueue 3 { TaskQueue.reset with en := true, sspace := true, slots := [y], faulted := some x }).cluster 0 with bankMode := [(0, 1)] }
    let g := f.setCore 1 { f.core 1 with point := none, suspended := true }
    (s.fwstat = 0 ∧ s.partitionOf 0 = some 0 ∧ (s.pcb 0).isSealed = false ∧ (s.queue 3).en = false ∧ field (0x30 : Word) 3 5 = 6 ∧ field (0xA0 : Word) 3 5 = 20 ∧
      field (0xA0 : Word) 8 7 = 0 ∧ (s.queue 3).faulted = none ∧ (s.queue 3).rblk = false) ∧
    ((g.queue 3).faulted = some x ∧ (g.queue 3).rblk = false ∧ (g.queue 3).sspace = true ∧ (g.queue 3).slotOf x.ticket = some y ∧
      y.ring.isSome = true ∧ (g.cluster 0).scratchBanks ((g.queue 3).slotAddr (y.ring.getD 0)) 64 = true ∧ (g.core x.core).point = none ∧
      g.partitionOf 0 = some 0 ∧ x.words.length = 8 ∧ g.saves = [] ∧ (0 : Nat) < 4) ∧
    ((onStream (g.setQueue 3 { g.queue 3 with faulted := none }) .c fun z => { z with tickets := [(3, 5)] }).stream 0 .c).tickets = [(3, 5)] ∧
    ((g.setQueue 3 { g.queue 3 with faulted := none }).queue 3).slotOf 5 = some y ∧
    (g.sumpWrite 3 ((g.queue 3).slotAddr 0) (List.replicate 8 0)).2 = none ∧
    ((g.setCluster 0 { g.cluster 0 with bankMode := [] }).sumpWrite 3 ((g.queue 3).slotAddr 0) (List.replicate 8 0)).2.isSome = true := by
  decide +kernel

/-! Launch records -/

/-- A record with its layout table at 0x8000, one layout, for statistics. -/
def record1 (state : RecState) : Record :=
  { Record.reset with
    state := state,
    words := (((((Record.reset.words.set 0 0x1000).set 4 (word (24 * 2 ^ 10))).set 5 5).set 15 0x8000).set 16 1).set 17 0x80000001 }

/-- The device with the layout table in memory, and a record. -/
def withRecord (s : State) (r : Record) : State :=
  ((withCode s 0x1000 [0xFF004000]).hbmPut 1 0x8000 (leBytes 64 (entry 0x9000 4 4 16 8).toNat)).setRecord 0 r

/-- R344: a BUILT record that passes, one whose word 5 fails, one that is ACTIVE, and a number outside the slice. -/
theorem test_meets_LaunchRequests :
    let s (x : RecState) := withRecord (devOf .c 0 7) (record1 x)
    let bad := withRecord (devOf .c 0 7) { record1 .built with words := (record1 .built).words.set 5 0 }
    let far := withRecord (devOf .c 16 7) (record1 .built)
    (Acts (s .built) 0 .c [1, 2] ∧ ((s .built).reg 0 .c 1).toNat = 0 ∧ ((s .built).pcb ((s .built).core 0).part).holds 0 = true ∧
      ((s .built).record 0).state = .built ∧ (((s .built).record 0).words.toList.getD 17 0).getLsbD 31 = true ∧
      (((s .built).record 0).words.toList.getD 17 0).getLsbD 1 = false ∧ ((s .built).checkArm 0 0).2 = .ok ([], 0x9000)) ∧
    (bad.checkArm 0 0).2 = .error 5 ∧ ((s .active).record 0).state = .active ∧
    Acts far 0 .c [1, 2] ∧ (far.pcb (far.core 0).part).holds 16 = false ∧ (far.pcb (far.core 0).part).holds 15 = true := by
  unfold Acts; decide +kernel

theorem test_meets_HostLaunchCommands :
    let s (x : RecState) := withRecord (dev .c) (record1 x)
    let z := onPcb (s .built) fun b => { b with isSealed := true }
    (∀ x ∈ [RecState.free, .built, .armed, .waiting, .active, .done, .faulted], ((s x).pcb 0).holds 0 = true ∧ ((s x).pcb 0).isSealed = false ∧
      ((s x).record 0).state = x ∧ (s x).sliceOwner 0 = some 0 ∧ (s x).fwstat = 0) ∧
    ((s .done).checkArm 0 0).2 = .ok ([], 0x9000) ∧
    ((withRecord (dev .c) { record1 .built with words := (record1 .built).words.set 5 0 }).checkArm 0 0).2 = .error 5 ∧ ((s .free).pcb 0).holds 16 = false ∧ (z.pcb 0).holds 0 = true ∧ (z.pcb 0).isSealed = true := by
  decide +kernel

theorem test_meets_HeadframeRound :
    let r := { record1 .armed with words := (record1 .armed).words.set 4 (word (24 * 2 ^ 10 + 1)) }
    let s := withRecord (dev .c) r
    Rising s.records ∧ (0, r) ∈ s.records ∧ r.state = .armed ∧ r.isRange = true ∧ r.npred = 0 ∧ r.nlink = 0 := by
  unfold Rising; decide +kernel

/-- R117, R128: a FRONT record with two points, of which one has completed, and a completion of an arming before; a RANGE record with work left; one that waits for a FAULTED
record. -/
theorem test_meets_HeadframeRound_completions :
    let f (n line : Nat) (stop : Nat) : Fired := ⟨n, [0, line], line, 0, 0, some 2, true, false, 3, stop, 0, false, []⟩
    let front : Record := { record1 .active with nser := 3, points := [f 1 0 0, f 2 4 0], heights := [(4, 1)] }
    let range : Record := { front with words := (record1 .active).words.set 4 (word (24 * 2 ^ 10 + 1)), points := [f 1 0 10] }
    let waits : Record := { record1 .waiting with words := ((record1 .waiting).words.set 4 (word (24 * 2 ^ 10 + 2 ^ 27))).set 13 1 }
    let s (r : Record) : State := { withRecord (dev .c) r with completions := [(0, 1, r.arming), (0, 2, r.arming + 1)] }
    let w := (withRecord (dev .c) waits).setRecord 1 (record1 .faulted)
    (∀ r ∈ [front, range], Rising (s r).records ∧ Rising r.heights ∧ (r.points.map fun p => p.serial).Nodup ∧
      (r.points.map fun p => p.line).Nodup ∧ (∀ p ∈ r.points, p.serial < r.nser) ∧ (r.fired 1).isSome = true ∧ r.state = .active ∧
      (0, 1, r.arming) ∈ (s r).completions ∧ (0, 2, r.arming) ∉ (s r).completions) ∧
    front.isRange = false ∧ range.isRange = true ∧ ((w.record 0).state.live = true ∧ 0 < (w.record 0).npred ∧
      (w.record ((w.record 0).pred 0)).state = .faulted) ∧ (0, waits) ∈ w.records := by
  unfold Rising; decide +kernel

/-- A record of two dimensions, 5 lines of 5 points, swept along the first, with the vector (0, 1). -/
def front1 : Record :=
  { record1 .active with
    words := ((((record1 .active).words.set 4 (word (24 * 2 ^ 10 + 2 + 2 ^ 22))).set 5 (word (5 + 5 * 2 ^ 32))).set 8 0x0100), nser := 1 }

/-- R117, R118: the first point of line 0 passes its test, the first of line 1 does not. -/
theorem test_meets_FireTests :
    let s := withRecord (dev .c) front1
    let r := s.record 0
    (Rising s.records ∧ s.completions = [] ∧ (0, front1) ∈ s.records) ∧
    (r.state = .active ∧ r.isRange = false ∧ r.sweep < r.dims ∧ s.savedRecord 0 = false ∧ r.points.length + r.lines ≤ 256 ∧
      (∀ p ∈ r.points, p.serial < r.nser)) ∧
    (∀ m, (s.record m).state = .free ∨ (s.record m).state = .active) ∧
    (∀ x ∈ [[0, 0], [0, 1]], x.length = r.dims ∧ InSpace r x ∧ x.getD r.sweep 0 = ((tget 0 r.heights (lineNo r x) : Nat) : Int)) ∧
    (InSpace r [0, 0] ∧ (∀ k, k < r.dims → ([0, 0] : List Int).getD k 0 = ([0, 1] : List Int).getD k 0 - r.dep 0 k) ∧ 0 < r.ndep ∧
      ¬ BehindFace r [0, 0]) := by
  refine ⟨by unfold Rising; decide +kernel, by decide +kernel, fun m => ?_, by unfold InSpace; decide +kernel,
    by unfold InSpace BehindFace; decide +kernel⟩
  by_cases h : m = 0
  · subst h; right; decide +kernel
  · left
    have e : (withRecord (dev .c) front1).records = [(0, front1)] := by decide +kernel
    simp [State.record, e, tget, tfind, h, Record.reset]

/-- A dispatched point of record 0. -/
def fired1 (started : Bool) : Fired := ⟨1, [4], 0, 0, 0, some 2, started, false, 0, 0, 0, false, []⟩

theorem test_meets_PointStarts :
    let s := withRecord (dev .c) { record1 .active with points := [fired1 false] }
    (s.record 0).fired 1 = some (fired1 false) ∧ (fired1 false).crew = some 2 ∧ (fired1 false).started = false ∧ (fired1 false).serial = 1 ∧
      s.canStart (s.record 0) 2 = true := by decide +kernel

/-- R114: a core of which all four streams have ended; R347: a record of 5 points, all done. -/
theorem test_meets_PointsEnd :
    let e (x : Stream) : Stream := { x with ended := true }
    let s := onStream (onStream (onStream (onStream (dev .c) .c e) .t e) .a e) .h e
    let d := withRecord (dev .c) { record1 .active with heights := [(0, 5)], statBase := 0x9000 }
    (s.crewRunning 0 1 = some (point1 0) ∧ ∀ k ∈ crewCores (point1 0).kind (point1 0).base, s.runsPoint 0 1 k = true ∧ (s.core k).finished = true ∧ s.clocked k = true) ∧
    Rising d.records ∧ (d.record 0).complete = true ∧ (d.pcb (d.record 0).part).saving = false ∧
      (d.writePaged (d.pcb (d.record 0).part).firstCluster (d.record 0).part (d.record 0).statBase (statBytes (d.record 0).stats 0 1024)).2 = none := by
  unfold Rising; decide +kernel

/-! Partitions, pre-emption and restore -/

/-- A partition with a save area, sealed, not formed, without a save area, saved, and with a save and a restore in progress. -/
theorem test_meets_PreemptionCommands :
    let b : Pcb := { pcb1 with saveBase := 64 }
    let busy (b : Pcb) : Prop := b.formed = false ∨ b.saved = true ∨ b.saving = true ∨ b.restoring = true
    (0 < 128 ∧ b.isSealed = false ∧ ¬ busy b ∧ b.saveBase ≠ 0) ∧ (¬ busy pcb1 ∧ pcb1.saveBase = 0 ∧ pcb1.isSealed = false) ∧
    ({ b with isSealed := true }).isSealed = true ∧ busy Pcb.reset ∧ Pcb.reset.isSealed = false ∧
    ((dev .c).pcb 0 = pcb1 ∧ ((onPcb (dev .c) fun _ => { b with saved := true }).pcb 0).saved = true ∧ b.saving = false ∧ b.restoring = false) ∧
    ((∀ w ∈ (dev .c).waiters, (dev .c).overdue w = false) ∧ ∀ x ∈ (dev .c).cores, x.2.carve = []) ∧
    busy { b with saving := true } ∧ ((dev .c).core 0).point.isSome = true ∧ ((dev .c).core 0).part = 0 ∧
      Claims.member pcb1 15 ∧ (State.reset.core 15).halted = true ∧ ¬ Claims.member pcb1 16 := by
  unfold Claims.member; decide +kernel

theorem test_meets_SaveStops :
    let s := onCore (onPcb (dev .c) fun b => { b with saving := true }) fun c => { c with stop := true }
    let s := s.setCore 1 { s.core 1 with stop := true }
    (s.pcb 0).saving = true ∧ (s.pcb 0).saveStopped = false ∧ s.allStopped 0 = true ∧ (s.core 0).point = some (point1 0) ∧
      (s.core 0).part = 0 ∧ 0 ∈ crewCores (point1 0).kind (point1 0).base ∧
      ∀ j ∈ crewCores (point1 0).kind (point1 0).base, s.runsPoint 0 1 j = true → (s.core j).committed = false := by decide +kernel

/-- An image of core 0 in a shadow area. -/
def image1 : SavedImage := ⟨0, 0, 1, some 0, 0, 0, 1, true, true, core1 0 7 3, none⟩

theorem test_meets_SaveEnds :
    let v : Save := ⟨[image1], [], [], 0⟩
    let s := onPcb { dev .c with saves := [(0, v)] } fun b => { b with saving := true, saveStopped := true }
    tfind s.saves 0 = some v ∧ (s.pcb 0).saving = true ∧ (s.pcb 0).saveStopped = true ∧ (s.pcb 0).saveBase = 0 ∧
      ∀ k ∈ s.runners 0, (s.core k).trapBad = false := by decide +kernel

theorem test_meets_RestoreCompletes :
    let v : Save := ⟨[image1], [(0, false, 0)], [], 0⟩
    let s := onPcb { dev .c with saves := [(0, v)] } fun b => { b with saved := true, restoring := true, saveNo := 1 }
    let s := (onCore s fun c => { c with point := none }).setRecord 0 { record1 .active with points := [{ fired1 true with crew := some 0 }] }
    tfind s.saves 0 = some v ∧ (s.pcb 0).restoring = true ∧ v.images = [image1] ∧ v.used = 0 ∧ image1.shadow.isSome = true ∧
      image1.sound = true ∧ image1.saveNo = (s.pcb 0).saveNo ∧ image1.scan = true ∧ s.crewsFree v = true ∧
      ((s.record image1.recNo).fired image1.serial).isSome = true ∧ image1.image.carve = [] ∧
      (s.core image1.core).carve = [] ∧ image1.image.raised = none ∧ image1.image.firstHeld = none ∧
      (∀ st, (image1.image.stream st).wait = none) ∧ (∀ x, image1.image.point = some x → (s.record x.recNo).arming = x.arming) := by
  refine ⟨?_, ?_, ?_, ?_, ?_, ?_, ?_, ?_, ?_, ?_, ?_, ?_, ?_, ?_, ?_, ?_⟩ <;>
    first | decide +kernel | (intro st; cases st <;> decide +kernel)

theorem test_meets_PartitionReset :
    let s := onPcb (dev .c) fun b => { b with saving := true }
    0 < 128 ∧ (s.pcb 0).saving = true ∧ ((dev .c).pcb 0).saving = false ∧ ((dev .c).pcb 0).formed = true := by decide +kernel

/-- R332: a partition that may be formed, one that names no cluster, and one formed whose cores are all halted. -/
theorem test_meets_FormAndDissolve :
    let f : State := State.reset.setPcb 1 { pcb1 with formed := false }
    let d : State := State.reset.setPcb 1 pcb1
    (f.fwstat = 0 ∧ f.formError 1 = 0) ∧ State.reset.formError 1 ≠ 0 ∧ ((d.pcb 1).formed = true ∧ (d.pcb 1).saving = false ∧ (d.pcb 1).restoring = false ∧
      (∀ k ∈ List.range 16, (d.core k).halted = true) ∧ ∀ n ∈ (d.pcb 1).slice, (d.record n).state = .free) ∧
    ((dev .c).core 0).halted = false ∧ Claims.member ((dev .c).pcb 0) 0 := by
  unfold Claims.member; decide +kernel

/-- R335, R416: cluster phaser 64 and device phaser 65 at their bounds, with a participant and without. -/
theorem test_meets_PhaserConfiguration :
    let s := dev .c
    let m := (dev .c).setPhaser 0 64 (phaser1 0 [member1 true false 0])
    let o : State := { dev .c with dphasers := [(0, phaser1 0 [member1 true false 0])] }
    (0 < 128 ∧ s.fwstat = 0 ∧ s.inbound = [] ∧ s.phaserGuard 0 64 = false ∧ (s.phaser 0 64).members = [] ∧ s.phaserOwner 0 64 (field (1 : Word) 2 7) = true) ∧
    (m.phaserGuard 0 64 = false ∧ (m.phaser 0 64).members ≠ []) ∧
    (s.dphaser 255).members = [] ∧ (o.dphaser 0).members ≠ [] ∧
      (field (0x0000000100000000 : Word) 20 13 = 4096 ∧ field (0x0000000100000000 : Word) 1 19 + 4096 ≤ 2 ^ 19) := by
  decide +kernel

theorem test_meets_CoreAccess :
    let s := dev .c
    0 < 128 ∧ 15 < 16 ∧ s.fwstat = 0 ∧ (s.pcb 0).isSealed = false ∧ (s.pcb 0).clusterAt 0 = some 0 ∧ (s.core 15).halted = true ∧ (s.core 0).halted = false := by
  decide +kernel

/-- R339: s_w = 2^-16 and 2^15, a write that waits, and a panel asked to retire with a spare and without. -/
theorem test_meets_PanelControls :
    let s := onCore (dev .c) fun c => { c with panels := [(0, { panel1 with pendingSw := some 0x40000000, retiring := true })] }
    let n := onCore s fun c => { c with spares := 0 }
    let ok (v : Word) : Prop := v.toNat % 2 ^ 23 = 0 ∧ v.getLsbD 31 = false ∧ 111 ≤ field v 23 8 ∧ field v 23 8 ≤ 142
    let up : State := { s with
      rails := true, clusters := (List.range 31).map (fun c => (c, { Cluster.reset with trimmed := true })) ++ [(31, { Cluster.reset with lost := true })] }
    let cal := up.setShaft 0 { Shaft.reset with cal := true }
    let held := up.setShaft 0 { Shaft.reset with lower := true, upper := true }
    let trimmed (s : State) : Prop := s.rails = true ∧ s.cut.getLsbD 0 = false ∧
      ∀ i ∈ List.range 32, (s.cluster i).trimmed = true ∨ (s.cluster i).lost = true
    (¬ trimmed s ∧ (trimmed cal ∧ (cal.shaft (shaftOf 0)).cal = true) ∧ trimmed held ∧ (held.shaft (shaftOf 0)).cal = false ∧
      (held.shaft (shaftOf 0)).lower = true ∧ (held.shaft (shaftOf 0)).upper = true) ∧
    (s.fwstat = 0 ∧ (s.pcb 0).isSealed = false ∧ (s.pcb 0).clusterAt 0 = some 0 ∧ clusterOf 0 = 0 ∧
      ok 0x37800000 ∧ ok 0x47000000) ∧
    ((s.core 0).panel 0).pendingSw = some 0x40000000 ∧ (s.core 0).panelActive 0 = false ∧ ((s.core 0).panel 0).retiring = true ∧
      ((s.core 0).panel 0).retired = false ∧ (s.core 0).spares ≠ 0 ∧ (n.core 0).spares = 0 := by decide +kernel

/-- R148, R336: a cluster of no member, the first shadow bank, and bank 55 below it: in the mode asked for, in another, with one other
cache bank left, and in a switch. -/
theorem test_meets_BankCommands :
    let s := (dev .c).setCluster 0 { Cluster.reset with shadow := 8 }
    let w := onPcb s fun b => { b with clWait := some ⟨0, 0, 5, 1⟩ }
    let b := s.pcb 0
    let others (s : State) := ((List.range 64).filter fun x => x != 55 && decide (x + (s.cluster 0).shadow < 64) &&
      tget 0 (s.cluster 0).bankMode x == 0 && (tfind (s.cluster 0).bankBusy x).isNone).length
    let few := s.setCluster 0 { s.cluster 0 with bankMode := (List.range 54).map fun b => (b, 1) }
    let from1 := s.setCluster 0 { s.cluster 0 with bankMode := [(55, 1)] }
    let turning := s.setCluster 0 { s.cluster 0 with bankBusy := [(55, 1)] }
    (2 ≤ others s ∧ others few < 2 ∧ tget 0 (few.cluster 0).bankMode 55 = 0 ∧ tget 0 (from1.cluster 0).bankMode 55 = 1 ∧
      (tfind (turning.cluster 0).bankBusy 55).isSome = true) ∧
    s.fwstat = 0 ∧ b.isSealed = false ∧ b.clWait = none ∧ b.clDrain = none ∧ b.member 1 = false ∧ b.member 0 = true ∧
      64 ≤ 56 + (s.cluster 0).shadow ∧ 55 + (s.cluster 0).shadow < 64 ∧ tfind (s.cluster 0).bankBusy 55 = none ∧
      (∀ x ∈ s.pcbs, x.2.clWait = none) ∧ s.bankAhead 0 55 s.order = false ∧ tget 0 (s.cluster 0).bankMode 55 = 0 ∧ Rising s.pcbs ∧ (w.pcb 0).clWait.isSome = true := by unfold Rising; decide +kernel

/-! The host -/

/-- R331, R340: LCMD with CMD 7, and the fields of R74 of a point. -/
theorem test_meets_HostRegisters_lcmd : 5 < field (0x001F7000 : Word) 12 3 ∧ ((dev .c).pcb 0).isSealed = false ∧
    ((dev .c).core 0).point = some (point1 0) ∧ (State.reset.core 0).point = none := by decide +kernel

theorem test_meets_HostRegisters :
    let r : Report := ⟨1, 0, 0, 0⟩
    let s : State := { dev .c with reports := [(0, r)], fqTail := 0xFFFFFFFF, fqHead := 0xFFFFFFF0, devnumSet := true }
    s.fwstat = 0 ∧ (dev .c).devnumSet = false ∧ s.devnumSet = true ∧ (dev .c).reports = [] ∧ s.reports = [(0, r)] ∧
      (s.fqTail + 2 ^ 32 - (0xFFFFFFF0 : Word).toNat % 2 ^ 32) % 2 ^ 32 < 2 ^ s.fqLog ∧ (s.pcb 127).formed = false ∧ (s.pcb 0).formed = true ∧
      (s.pcb 0).saving = false ∧ (s.pcb 0).restoring = false := by decide +kernel

/-- R6, R400: no register of BAR 0 is sealed here; a device whose check failed. -/
theorem test_meets_HostReads :
    let z : State := { dev .c with fwstat := 3 }
    (∀ o ∈ [0x00, 0x40, 0x48, 0x80, 0x00100018, 0x00100020, 0xF8, 0x0014FFF8, 0x00400000, 0x004FFFF8, 0x01000000, 0x01000010, 0x08F00040], (dev .c).sealedAt o = none) ∧
      (dev .c).fwstat = 0 ∧ z.fwstat ≠ 0 ∧ z.sealedAt 0x48 = none := by decide +kernel

/-- Window 15 onto partition 0 of a device with tables: 8 bytes at 0x4000. -/
def windowed (w : Window) (leaf : Nat) : State :=
  let s := (dev .c).hbmPut 1 0x10000 (leBytes 8 leaf)
  { s with windows := [(15, w)] }

/-- R397: open for reading and writing, cached and not (SA), disabled, not writable, and a sealed partition. -/
theorem test_meets_HostWindows :
    let w : Window := ⟨0, true, true, 0⟩
    let s := windowed w 0xD
    let t := windowed w 0x1D
    let off := windowed { w with en := false } 0xD
    let ro := windowed { w with wen := false } 0xD
    let z := onPcb s fun b => { b with isSealed := true }
    let ls : List Loc := (List.range 8).map fun i => .hbm (0x4000 + i)
    let ds : List Loc := (List.range 8).map fun i => .direct (0x4000 + i)
    let g := { z with pcbs := z.pcbs }
    (tget ⟨0, false, false, 0⟩ s.windows 15 = w ∧ (s.pcb 0).formed = true ∧ (s.pcb 0).isSealed = false ∧ s.fwstat = 0 ∧ s.memoryWf ∧ Apart ls ∧
      (s.locateVirtual 0 0 0x4000 8 ⟨true, false, false, false, none⟩).2 = .ok ls ∧
      (s.locateVirtual 0 0 0x4000 8 ⟨false, true, false, false, none⟩).2 = .ok ls ∧
      (s.locateVirtual 0 0 0x4000 8 ⟨true, true, true, false, none⟩).2 = .ok ls ∧
      (t.locateVirtual 0 0 0x4000 4 ⟨true, true, true, false, none⟩).2 = .ok (ds.take 4) ∧ Apart (ds.take 4) ∧
      ∃ l ∈ ls, l.isDirect = false) ∧
    ((t.locateVirtual 0 0 0x4000 8 ⟨true, true, true, false, none⟩).2 = .ok ds ∧ (∀ l ∈ ds, l.isDirect = true) ∧ Apart ds) ∧ t.memoryWf ∧
    (tget ⟨0, false, false, 0⟩ off.windows 15).en = false ∧ (tget ⟨0, false, false, 0⟩ ro.windows 15).wen = false ∧
    (z.pcb 0).isSealed = true ∧ g.sealedAt 0x01001000 = some 0 := by unfold Apart; decide +kernel

/-- R392, R395: a walk that finds a leaf, one that does not, a cached page, and an invalidation in progress with an earlier access
outstanding and without. -/
theorem test_meets_Translations :
    let s := windowed ⟨0, true, true, 0⟩ 0xD
    let c := (s.translate 0 0 0x4000).1
    let i : State := { s with invBusy := true, invAt := 1 }
    let o := owing i .c (access .store [.hbm 0x4000] 0)
    let n : State := { i with invAt := 0 }
    (s.cachedTrans 0 0 0x4000 = none ∧ s.walk 0 0x4000 = .ok ⟨0, 0, 2 ^ 37, 0, true, true, false, false⟩) ∧
    (s.cachedTrans 0 0 (2 ^ 57 - 1) = none ∧ s.walk 0 (2 ^ 57 - 1) = .error (3, 4)) ∧ (c.cachedTrans 0 0 0x4000).isSome = true ∧
    s.fwstat = 0 ∧ (0x8000 : Word).getLsbD 15 = true ∧ s.invBusy = false ∧ i.invBusy = true ∧ Rising n.cores ∧
      (∀ x ∈ n.cores, ∀ st ∈ streamIds, (x.2.stream st).accesses = []) ∧
      access .store [.hbm 0x4000] 0 ∈ (o.stream 0 .c).accesses ∧ (access .store [.hbm 0x4000] 0).order0 < o.invAt := by
  unfold Rising; decide +kernel

/-! The lamp room -/

/-- R403: a pair at the ceiling of its band and one above it; limits at their bounds and outside. -/
theorem test_meets_RailsAndLimits :
    let pair (volts mhz : Nat) : Word := word (volts + 2 ^ 22 * mhz)
    (∀ x ∈ [(590, 900), (690, 1400), (790, 1800), (850, 2100), (550, 900)], field (pair x.1 x.2) 0 10 = x.1 ∧ field (pair x.1 x.2) 22 12 = x.2) ∧
    field (pair 840 2101) 22 12 = 2101 ∧ field (1500 + 65536 * 1900 : Word) 0 16 = 1500 ∧ field (1500 + 65536 * 1900 : Word) 16 16 = 1900 ∧
    field (499 + 65536 * 1900 : Word) 0 16 < 500 ∧ (dev .c).waiters = [] ∧ (∀ x ∈ (dev .c).cores, x.2.carve = [] ∧ x.2.stop = false) ∧ field (500 + 65536 * 500 : Word) 16 16 = 500 := by decide +kernel

/-- R131, R134: a twin that waits for an idle holder, a sprint, one of two sprints that began earlier, and a shaft before 95 degrees. -/
theorem test_meets_LampRoomEvents :
    let w := (dev .c).setShaft 0 { Shaft.reset with upper := true, reqs := [0] }
    let sp (n : Nat) : Shaft := { Shaft.reset with lower := true, upper := true, sprintAt := n }
    let s := ((dev .c).setShaft 0 (sp 1)).setShaft 1023 (sp 2)
    (shaftOf 0 = 0 ∧ w.clocked 0 = true ∧ ((w.setCluster 0 { w.cluster 0 with stopped := true }).clocked 0 = false) ∧ (w.shaft 0).reqs = [0] ∧ (w.shaft 0).cal = false ∧ (w.core 0).stop = false ∧ w.holdsLamp 0 = false ∧ w.holdsLamp (twinOf 0) = true ∧ (w.core (twinOf 0)).heavyRunning = false) ∧
    ((s.shaft 0).lower = true ∧ (s.shaft 0).upper = true ∧ Rising s.shafts ∧ (s.shaft 0).both = true ∧
      (∀ x ∈ s.shafts, x.1 ≠ 0 → x.2.both = true → (s.shaft 0).sprintAt < x.2.sprintAt) ∧ s.psprint < 1901 ∧ 1901 < 65536) ∧
    (w.shaft 0).lower = false ∧ (dev .c).cut.getLsbD (0 / 256) = false ∧ ((dev .c).shaft 0).hot = false ∧ ((dev .c).shaft 0).emerg = false ∧
      ((dev .c).core 0).point.isSome = true ∧ ((dev .c).pcb ((dev .c).core 0).part).formed = true ∧
      ((dev .c).pcb ((dev .c).core 0).part).saved = false ∧ (dev .c).waiters = [] ∧ ∀ x ∈ (dev .c).cores, x.2.carve = [] := by
  unfold Rising; decide +kernel

/-! Security, links and bring-up -/

theorem test_meets_SpdmRequests :
    let s : State := { withRecord (dev .c) (record1 .free) with sessions := [(0, true), (1, false)] }
    let four : State := { s with sessions := [(0, true), (1, false), (2, true), (3, true)] }
    let bad : State := { s with fwstat := 3 }
    s.fwstat = 0 ∧ bad.fwstat ≠ 0 ∧ s.sessions.length < 4 ∧ 4 ≤ four.sessions.length ∧ s.sessions.contains (1, false) = true ∧
      s.sessions.contains (2, false) = false ∧ s.sessions.contains (0, true) = true ∧ s.sessions.contains (2, true) = false ∧
      (s.pcb 0).holds 0 = true ∧ (s.record 0).state = .free := by decide +kernel

/-- R294, R416: an enabled port; a device without a number; a chunk whose turn has not come, and one that lands at 0x4000. -/
theorem test_meets_LinkEvents :
    let ph : Phaser := { Phaser.reset with alloc := true, bytes := true }
    let c : RemoteChunk := ⟨65, [⟨0x4000, [1, 2], none⟩], false, false⟩
    let base : State := { windowed ⟨0, true, true, 0⟩ 0xD with devnumSet := true, dphasers := [(0, ph)], ports := [(11, ⟨0, true, 0, 0⟩)] }
    let ord : State := { base with dphasers := [(0, { ph with ordEn := true, ordNsrc := 2 })] }
    ((base.port 11).en = true ∧ (base.port 10).en = false) ∧ (dev .c).devnumSet = false ∧
    (ord.devnumSet = true ∧ ord.chunkTaken 1 c = true ∧ (ord.dphaser 0).turnOf 1 = false) ∧
    base.chunkTaken 1 c = true ∧ (base.dphaser 0).turnOf 1 = true ∧ base.inbound = [] ∧ base.memoryWf ∧ c.add = false ∧
      (base.chunkHomes (base.pcb 0).firstCluster 0 c c.elems).2 = some [([.hbm 0x4000, .hbm 0x4001], ⟨0x4000, [1, 2], none⟩)] ∧
      Apart [.hbm 0x4000, .hbm 0x4001] ∧ ∀ x ∈ ord.inbound, (ord.dphaser (x.2.phaser - 65)).turnOf x.1 = false := by
  unfold Apart; decide +kernel

/-- R418 to R420: firmware that may start, the last rail of stage 1, and a panel that is not calibrated, in a stack whose rails are trimmed. -/
theorem test_meets_BringUpEvents :
    let s : State := { State.reset with fwReady := true }
    let t : State := { State.reset with stage := 1, clusters := (List.range 127).map fun c => (c, { Cluster.reset with trimmed := true }) }
    let p : State := { State.reset with
      stage := 2, rails := true, clusters := (List.range 32).map fun c => (96 + c, { Cluster.reset with trimmed := true }), calcl := 127, shafts := [(1023, { Shaft.reset with cal := true })] }
    s.fwReady = true ∧ State.reset.fwReady = false ∧ (t.stage ≠ 0 ∧ (t.cluster 127).trimmed = false ∧ (t.cluster 127).lost = false ∧
      ∀ j ∈ List.range 127, (t.cluster j).trimmed = true) ∧ (p.rails = true ∧ p.cut.getLsbD (2047 / 512) = false ∧
      (∀ i ∈ List.range 32, (p.cluster (32 * (2047 / 512) + i)).trimmed = true) ∧ p.calcl = clusterOf 2047 ∧ (p.cluster (clusterOf 2047)).lost = false ∧
      (p.shaft (shaftOf 2047)).cal = true ∧ ((p.core 2047).panel 31).calibrated = false ∧ ((p.core 2047).panel 31).retired = false ∧
      ((p.core 2047).panel 31).retiring = false) := by decide +kernel

/-! Encodings -/

theorem test_meets_EncodeThenDecode :
    (Instr.phreg 1 3).wf = true ∧ encode (.phreg 1 3) = some (32, 0xA0022803) ∧ parcelBytes 32 0xA0022803 = [0x02, 0xA0, 0x03, 0x28] := by
  decide +kernel

theorem test_meets_DecodeThenEncode : decode [0x65, 0x08, 0x01] = .ok (.add16 3 5, [0x01]) := by decide +kernel

/-- A step from a state whose memory is in canonical form. -/
theorem test_meets_MemoryStaysCanonical :
    let s := State.reset.withFetchWord 32 0x80221800
    s.memoryWf ∧ ∃ t, step s = .next t := by
  exact ⟨by decide +kernel, isNext_next (by decide +kernel)⟩

/-- R101, R84, R103 (04, 11 and 12): a quad of t9, ARGRW with an X field, ASTAT with view T, array op 12, HLD with code 01, HFILL with a
source layout, HO op 6, and an SR word of function 40 with W[10:6] set. -/
theorem test_words_refused :
    decodeTableWord 32 0xD0004800 = none ∧ decodeTableWord 32 0xD7080800 = none ∧ decodeTableWord 32 0xDA100510 = none ∧
    decodeTableWord 32 0xDC000000 = none ∧ decodeTableWord 32 0xE0840D2A = none ∧ decodeTableWord 32 0xF2060160 = none ∧
    decodeTableWord 32 0xEC000000 = none ∧ decodeTableWord 32 0x80000068 = none := by decide +kernel

/-- R77: a header is no instruction, and half of a 32-bit parcel is none. -/
theorem test_header_refused :
    (decode [0x00, 0xFF, 0x08, 0x64]).toBool = false ∧ (decode [0x22, 0x80]).toBool = false := by decide +kernel

/-! ### Ill-formed terms, one for each check of WellFormed -/

theorem test_wf_register_run : (Instr.atcas 31 7 3 0).check = some .registerRun := by decide
theorem test_wf_join_fields : (Instr.join 3 5).check = some .joinFields ∧ (Instr.join 0 0).check = some .joinFields := by decide
theorem test_wf_role_zero : (Instr.phreg 5 0).check = some .roleZero ∧ (Instr.phrole 5 0).check = some .roleZero := by decide
theorem test_wf_carve_count : (Instr.carve 5 7).check = some .carveCount ∧ (Instr.carve 5 33).check = some .carveCount := by decide
theorem test_wf_bank_mode : (Instr.bank 3 0).check = some .bankMode := by decide
theorem test_wf_destination_view : (Instr.tadd 0x0A 0x10 0x18).check = some .destinationView := by decide
theorem test_wf_mark_set : (Instr.tdesc 0x09 2 3 1).check = some .markSet := by decide

/-- A word of each, refused by the decoder: atcas s31; phreg with role 0; a tile count of 33; bank mode 3; tadd t1.t; tdesc t1!. -/
theorem test_wf_words_refused :
    decodeTableWord 32 0x9FCE06B0 = none ∧ decodeTableWord 32 0xA00A2800 = none ∧
    decodeTableWord 32 0xB00A1018 = none ∧ decodeTableWord 32 0xCC012219 = none := by decide +kernel

/-! ### Single steps, with the values the spec works out -/

/-- What an instruction of the C stream writes to s4, for s1 = a and s2 = b. -/
def result (i : Instr) (a b : Word) : Word := (after (exec i (devOf .c a b))).reg 0 .c 4

/-- R168, the table: DIV and REM of -7 and 2. -/
theorem test_div_truncates : result (.div 4 1 2) (-7) 2 = -3 ∧ result (.rem 4 1 2) (-7) 2 = -1 := by decide +kernel

/-- R168: DIV of the least number and -1, and REM of 5 and 0. -/
theorem test_div_corners :
    result (.div 4 1 2) 0x8000000000000000 (-1) = 0x8000000000000000 ∧ result (.rem 4 1 2) 5 0 = 5 ∧ result (.divu 4 1 2) 7 0 = -1 := by
  decide +kernel

/-- 07_scalar_instructions.md: CADD moves one coordinate by -1. -/
theorem test_cadd_lanes : result (.cadd 4 1 2) 0x0000000000050011 0x000000000000FFFF = 0x0000000000050010 := by decide +kernel

/-- R56: s0 discards what is written. -/
theorem test_s0_discards : (after (exec (.add 0 1 2) (dev .c))).reg 0 .c 0 = 0 ∧ ((after (exec (.add 0 1 2) (dev .c))).stream 0 .c).seq = 1 := by
  decide +kernel

/-- R73: the element of the worked example of 03_state.md; lane 0 of 300 and of -1 lie outside. -/
theorem test_element_address :
    let y := parseLayout 0 (BitVec.ofNat 512 (0x200000 + 2 ^ 57 * 4 + 2 ^ 60 + 2 ^ 64 + 2 ^ 98 + 2 ^ 99 + 2 ^ 128 * 300 + 2 ^ 160 * 64 +
      2 ^ 256 * 2 + 2 ^ 148 * 2 ^ 148 * 600 + 2 ^ 208 * 2 ^ 208 + 2 ^ 216 * 2 ^ 216))
    y.address (y.index 0x0000000000050011 []) = 0x200BDA ∧ y.inBounds (y.index 0x0000000000050011 []) = true ∧
      y.inBounds (y.index 0x000000000005012C []) = false ∧ y.inBounds (y.index 0x000000000005FFFF []) = false := by decide +kernel

/-- 02_numbers.md: FP32 to BF16 under the four modes. -/
theorem test_bf16_rounding :
    ((List.range 4).map fun m => (roundTo 1 m true (fp32 0x3F808000)).1) = [0x3F80, 0x3F80, 0x3F81, 0x3F80] ∧
    ((List.range 4).map fun m => (roundTo 1 m true (fp32 0xBF808000)).1) = [0xBF80, 0xBF80, 0xBF80, 0xBF81] ∧
    ((List.range 4).map fun m => (roundTo 1 m true (fp32 0x3F818000)).1) = [0x3F82, 0x3F81, 0x3F82, 0x3F81] := by decide +kernel

/-- R53: the first output from seed 1. -/
theorem test_xorshift : xorshift 1 = 0x0000000040822041 ∧ seeded 0 = 0x9E3779B97F4A7C15 := by decide +kernel

/-- R239: the CRC-32C of "123456789". -/
theorem test_crc32c : crc32c [0x31, 0x32, 0x33, 0x34, 0x35, 0x36, 0x37, 0x38, 0x39] = 0xE3069283 := by decide +kernel

/-- R58: the descriptor of the worked example of 03_state.md. -/
theorem test_tdrd_descriptor : ({ Tile.reset with full := true, sat := true } : Tile).desc = 0x000000000013FFF9 := by decide +kernel

/-- A one-row tile of elements with codes. -/
def rowTile (fmt : Nat) (codes : List Nat) : Tile :=
  { Tile.reset with
    fmt := fmt, rows1 := 0, cols1 := codes.length - 1, full := true,
    data := numbered 0 (codes.flatMap fun c => leBytes (fmtBytes fmt) c) |>.filter fun p => p.2 != 0 }

/-- Core 0 with tile 1 holding codes and tile 2 of one element, a vector instruction in the unit. -/
def vecRun (i : Instr) (f : Nat) (codes : List Nat) (g cols : Nat) : State :=
  onCore (dev .t) fun c =>
    { (c.setTile 1 (rowTile f codes)).setTile 2 { rowTile g (List.replicate cols 0) with full := false } with vec := some ⟨i, 0, 0, 0, 16⟩ }

/-- Element (0, n) of tile 2 once the instruction has completed. -/
def vecResult (s : State) (n : Nat) : Nat := (((after (exec (.vectorComplete 0) s)).core 0).tile 2).code 0 n

/-- 09_tile_instructions.md: TSIG of BF16 2.0 into a BF16 tile. -/
theorem test_tsig : vecResult (vecRun (.tsig 0x10 0x08) 1 [0x4000] 1 1) 0 = 0x3F61 := by decide +kernel

/-- 09_tile_instructions.md, R228: TRSUM of 2^24, 1 and 1 is exact in FP32. -/
theorem test_trsum : vecResult (vecRun (.trsum 0x10 0x08) 1 [0x4B80, 0x3F80, 0x3F80] 0 1) 0 = 0x4B800001 := by decide +kernel

/-- 02_numbers.md: TADD of INT32 16,777,217 and 0 into an FP32 tile gives 16,777,216. -/
theorem test_tadd_int32 :
    let s := vecRun (.tadd 0x10 0x08 0x18) 5 [16777217] 0 1
    vecResult (onCore s fun c => c.setTile 3 (rowTile 5 [0])) 0 = 0x4B800000 := by decide +kernel

/-- R54: TRAND from seed 1. -/
theorem test_trand :
    let s := onCore (vecRun (.trand 0x10) 7 [0] 7 2) fun c => { c with gen := 1 }
    vecResult s 0 = 0x40822041 ∧ vecResult s 1 = 0 := by decide +kernel

/-- 09_tile_instructions.md: a drain of 1,000.0 into BF16, with the clamp of 400.0 and without. -/
theorem test_tdrain_clamp :
    let s (cl : BitVec 1) := onCore (dev .t) fun c =>
      { c.setTile 8 { rowTile 1 [0] with full := false } with
        m0 := { Accum.reset with elems := [(0, 0x408F400000000000)], rows := 1, cols := 1 },
        mat := [⟨.tdrain 0 0x40 0 cl 0 1, 0, 0x43C80000, true, 0, true, 0, 0, 0, 0⟩] }
    let t (cl : BitVec 1) := ((after (exec (.matrixComplete 0) (s cl))).core 0).tile 8
    ((t 1).code 0 0 = 0x43C8 ∧ (t 1).sat = true) ∧ (t 0).code 0 0 = 0x447A ∧ (t 0).sat = false := by decide +kernel

/-- A one-column BF16 tile of sixteen ones; a row takes 256 bytes (R34). -/
def onesTile : Tile :=
  { Tile.reset with
    rows1 := 15, cols1 := 0, full := true, data := (List.range 16).flatMap fun i => [(256 * i, 0x80), (256 * i + 1, 0x3F)] }

/-- A product t1 by t2 started, the lamp held. -/
def productRun (a b : Tile) : State :=
  (onCore (dev .t) fun c => { (c.setTile 1 a).setTile 2 b with mat := [matOp (.tmma 0 0x08 0x10) true false] }).setShaft 0
    { Shaft.reset with lower := true }

/-- 02_numbers.md, R46: a block of 2^53 and fifteen ones rounds once, to 2^53 + 16. -/
theorem test_tmma_block :
    tget 0 ((after (exec (.matrixBlock 0) (productRun (rowTile 1 (0x5A00 :: List.replicate 15 0x3F80)) onesTile))).core 0).m0.elems 0 =
      0x4340000000000008 := by decide +kernel

/-- 08_sync_instructions.md, R182: STF of 5 serves the LDF of T and then the LDFE of A, which waited; the word ends empty. -/
theorem test_full_empty_order :
    let ls : List Loc := (List.range 8).map fun i => .scratch 0 (72 + i)
    let w (op : FeOp) (n : Nat) (x : Stream) : Stream := { x with wait := some (.word op 4 0 ls, n) }
    let s := onStream (onStream (devOf .c 5 0) .t (w .ldf 0)) .a (w .ldfe 1)
    let t := after (exec (.stf 1 3 0 0) s)
    t.reg 0 .t 4 = 5 ∧ t.reg 0 .a 4 = 5 ∧ t.wordFull (.scratch 0 72) = false := by decide +kernel

/-- 16_system_state.md: SWR of %wdog in user state raises cause 0x04, and enters the handler at %trapvec. -/
theorem test_swr_privileged :
    let t := after (exec (.swr 1 0x101) (dev .c))
    ((t.core 0).trapcause = 4 ∧ (t.core 0).priv = true) ∧ (t.core 0).hpos = ⟨0x2000, 0, 0, 0, .fresh⟩ ∧ (t.core 0).trappc = 0x1000 := by
  decide +kernel

/-- 19_translation_security.md: VA 0x20_60A1_2345 has index 1 at level 3, 3 at level 2, 5 at level 1. -/
theorem test_walk_levels :
    let s := (((({ dev .c with hbm := [] }).hbmPut 1 (0x10000 + 8) (leBytes 8 (0x20000 + 3))).hbmPut 1 (0x20000 + 24) (leBytes 8 (0x30000 + 3))).hbmPut 1
      (0x30000 + 40) (leBytes 8 (0x40000000 + 0xD)))
    s.walk 0 0x2060A12345 = .ok ⟨0, 0x2060A00000, 0x200000, 0x40000000, true, true, false, false⟩ := by decide +kernel

/-- 16_system_state.md: SAT, one merge and no drops are the words 0x0000_0001_0000_0004 and 0. -/
theorem test_statistics_entry :
    Stat.bytes ⟨false, false, true, false, 1, 0⟩ = leBytes 8 0x0000000100000004 ++ leBytes 8 0 := by decide +kernel

/-- 01_machine.md: core 1,037 is odd, its twin is core 1,036, its shaft 518, its cluster 64. -/
theorem test_core_place : twinOf 1037 = 1036 ∧ shaftOf 1037 = 518 ∧ clusterOf 1037 = 64 ∧ 1037 / 512 = 2 := by decide

/-- The first step after an instruction is placed runs it, ADDI s1,s0,5, and the state after reset is in canonical form. -/
theorem test_placed_instruction_runs :
    (after (step (State.reset.withFetchWord 32 0x84200005))).reg 0 .c 1 = 5 ∧ State.reset.memoryWf := by decide +kernel

end Sys2Proof.Tests
end

section
/-! SUPPORT. Fields of words: what a field reads of a word that is given by its fields. -/

namespace Sys2Proof.Machine

theorem field_zero (w : Word) (n : Nat) : field w 0 n = w.toNat % 2 ^ n := by simp [field]

theorem field_lt (w : Word) (lo n : Nat) : field w lo n < 2 ^ n := Nat.mod_lt _ (Nat.two_pow_pos n)

/-- The bits of a field are those of the word from the field's lowest bit on. -/
theorem testBit_field (w : Word) (lo n j : Nat) : (field w lo n).testBit j = (decide (j < n) && w.getLsbD (lo + j)) := by
  simp [field, Nat.testBit_mod_two_pow, Nat.testBit_div_two_pow, BitVec.getLsbD, Nat.add_comm]

/-- The bits of one placed value: those of the value, from its lowest bit on and within its width. -/
theorem getLsbD_placed (lo n x i : Nat) :
    (word (x % 2 ^ n * 2 ^ lo)).getLsbD i = (decide (i < 64) && (decide (lo ≤ i ∧ i - lo < n) && x.testBit (i - lo))) := by
  simp [word, BitVec.getLsbD_ofNat, Nat.testBit_mul_two_pow, Nat.testBit_mod_two_pow, Bool.and_assoc]

/-- A bit of a word of fields: that of the fields which cover its place. -/
theorem getLsbD_fieldWord (l : List (Nat × Nat × Nat)) (i : Nat) :
    (fieldWord l).getLsbD i = l.any fun f => (word (f.2.2 % 2 ^ f.2.1 * 2 ^ f.1)).getLsbD i := by
  have acc : ∀ (l : List (Nat × Nat × Nat)) (w : Word),
      (l.foldl (fun w f => w ||| word (f.2.2 % 2 ^ f.2.1 * 2 ^ f.1)) w).getLsbD i =
        (w.getLsbD i || l.any fun f => (word (f.2.2 % 2 ^ f.2.1 * 2 ^ f.1)).getLsbD i) := by
    intro l
    induction l with
    | nil => simp
    | cons f l ih => intro w; rw [List.foldl_cons, ih, BitVec.getLsbD_or, List.any_cons, Bool.or_assoc]
  simpa [fieldWord] using acc l 0

/-- Fields in rising order, none reaching into the next. -/
def FieldsRise (l : List (Nat × Nat × Nat)) : Prop := l.Pairwise fun f g => f.1 + f.2.1 ≤ g.1

/-- Two of the fields that both cover a place are the same one. -/
theorem FieldsRise.eq_of_covers {l : List (Nat × Nat × Nat)} (h : FieldsRise l) {f g : Nat × Nat × Nat} (hf : f ∈ l) (hg : g ∈ l) {i : Nat}
    (hfi : f.1 ≤ i ∧ i < f.1 + f.2.1) (hgi : g.1 ≤ i ∧ i < g.1 + g.2.1) : f = g := by
  induction l with
  | nil => simp at hf
  | cons e l ih =>
    obtain ⟨he, hl⟩ := List.pairwise_cons.1 h
    obtain hfe | hf := List.mem_cons.1 hf <;> obtain hge | hg := List.mem_cons.1 hg
    · rw [hfe, hge]
    · have := he g hg
      rw [hfe] at hfi
      omega
    · have := he f hf
      rw [hge] at hgi
      omega
    · exact ih hl hf hg

/-- Where fields do not overlap, a bit within one of them is that field's own. -/
theorem getLsbD_fieldWord_mem {l : List (Nat × Nat × Nat)} {lo n x j : Nat} (hm : (lo, n, x) ∈ l) (hr : FieldsRise l) (hj : j < n)
    (h64 : lo + j < 64) : (fieldWord l).getLsbD (lo + j) = x.testBit j := by
  rw [getLsbD_fieldWord, Bool.eq_iff_iff, List.any_eq_true]
  constructor
  · rintro ⟨g, hg, hb⟩
    simp only [getLsbD_placed, Bool.and_eq_true, decide_eq_true_eq] at hb
    obtain ⟨-, hc, hb⟩ := hb
    obtain rfl : (lo, n, x) = g := hr.eq_of_covers hm hg (i := lo + j) (by simp only; omega) (by omega)
    simpa using hb
  · intro hb
    exact ⟨_, hm, by simp [getLsbD_placed, hj, h64, hb]⟩

/-- What a field of such a word reads: its value, cut to its width. -/
theorem field_fieldWord {l : List (Nat × Nat × Nat)} {lo n x : Nat} (hm : (lo, n, x) ∈ l) (hr : FieldsRise l) (h64 : lo + n ≤ 64) :
    field (fieldWord l) lo n = x % 2 ^ n := by
  refine Nat.eq_of_testBit_eq fun j => ?_
  rw [testBit_field, Nat.testBit_mod_two_pow]
  by_cases hj : j < n
  · rw [getLsbD_fieldWord_mem hm hr hj (by omega)]
  · simp [hj]

theorem testBit_zero_bit (b : Bool) : (bit b).testBit 0 = b := by cases b <;> rfl

/-- A Boolean in a field of one bit. -/
theorem getLsbD_fieldWord_bit {l : List (Nat × Nat × Nat)} {lo : Nat} {b : Bool} (hm : (lo, 1, bit b) ∈ l) (hr : FieldsRise l)
    (h64 : lo < 64) : (fieldWord l).getLsbD lo = b :=
  (getLsbD_fieldWord_mem (j := 0) hm hr Nat.one_pos h64).trans (testBit_zero_bit b)

/-- One field alone, from bit 0 on. -/
theorem fieldWord_single (n x : Nat) : fieldWord [(0, n, x)] = word (x % 2 ^ n) := by simp [fieldWord]

end Sys2Proof.Machine
end

section
/-! SUPPORT. Registers of BAR 0: what a write to each range of them does, and what a read of each range answers. -/

open Sys2Proof Sys2Proof.Claims

namespace Sys2Proof.Machine

/-! ### Registers with rows of their own (R341, R362, R363) -/

theorem devnumWrite_first {s : State} (v : Word) (hf : s.fwstat = 0) (hd : s.devnumSet = false) :
    exec (.devnumWrite v) s = .next { s with devnum := field v 8 19, devnumSet := true } := by
  simp [exec, execDevnumWrite, hf, hd]

theorem devnumWrite_again {s : State} (v : Word) (hf : s.fwstat = 0) (hd : s.devnumSet = true) :
    exec (.devnumWrite v) s = .next (s.logHost 7 0 0 false) := by
  simp [exec, execDevnumWrite, hf, hd]

/-- The kind of a logged access stands in its entry's bits 23:16 (R398). -/
theorem logHost_entry {s : State} {kind addr : Nat} (hk : kind < 256) :
    ∃ e, tfind (s.logHost kind 0 addr false).log (s.logCount % 64) = some e ∧ field e.1 16 8 = kind ∧ e.2 = word addr := by
  refine ⟨_, tfind_tput_self .., ?_, rfl⟩
  simp only [Bool.false_eq_true, if_false]
  generalize Config.requester s.draws = rid
  have hrid : (rid.getD 0).toNat < 2 ^ 16 := (rid.getD 0).isLt
  have hbit : bit rid.isNone < 2 := by cases rid <;> simp [bit]
  simp only [field, word, BitVec.toNat_ofNat]
  omega

theorem flushReports_nil {s : State} (h : s.reports = []) (n : Nat) : s.flushReports n = s := by
  cases n <;> simp [State.flushReports, h]

/-- There is room in the fault queue (R363). -/
def State.reportRoom (s : State) : Prop := (s.fqTail + 2 ^ 32 - s.fqHead) % 2 ^ 32 < 2 ^ s.fqLog

theorem fqTail_of_reports (s : State) (l : List (Nat × Report)) : ({ s with reports := l } : State).fqTail = s.fqTail := rfl

/-- A report that is written moves the tail of the fault queue on (R363). -/
theorem report_fqTail {s : State} (p : Nat) (r : Report) (h : s.reports = []) (hroom : s.reportRoom) :
    (s.report p r).fqTail = (s.fqTail + 1) % 2 ^ 32 := by
  rw [State.report, if_pos ⟨h, hroom⟩]

/-- One report that waits is written once there is room (R363). -/
theorem flushReports_one {s : State} {p : Nat} {r : Report} (h : s.reports = [(p, r)]) (hroom : s.reportRoom) :
    (s.flushReports s.reports.length).reports = [] ∧ (s.flushReports s.reports.length).fqTail = (s.fqTail + 1) % 2 ^ 32 := by
  have hone : s.flushReports 1 = { ({ s with reports := [] }).report p r with reports := [] } := by
    unfold State.flushReports
    rw [h]
    exact if_pos hroom
  have htail := report_fqTail (s := { s with reports := [] }) p r rfl hroom
  rw [h, List.length_singleton, hone]
  exact ⟨rfl, (fqTail_of_reports _ []).trans htail⟩

theorem fqcfgWrite_noReports {s : State} (v : Word) (hf : s.fwstat = 0) (hr : s.reports = []) :
    exec (.fqcfgWrite v) s = .next { s with
      fqLog := if 4 ≤ field v 0 5 ∧ field v 0 5 ≤ 16 then field v 0 5 else s.fqLog, fqInten := v.getLsbD 8 } := by
  refine congrArg Host.Outcome.next ?_
  rw [if_neg (not_not.2 hf)]
  exact flushReports_nil (s := { s with
    fqLog := if 4 ≤ field v 0 5 ∧ field v 0 5 ≤ 16 then field v 0 5 else s.fqLog, fqInten := v.getLsbD 8 }) hr _

theorem fqheadWrite_eq {s : State} (v : Word) (hf : s.fwstat = 0) :
    exec (.fqheadWrite v) s = .next ({ s with fqHead := v.toNat % 2 ^ 32 }.flushReports s.reports.length) := by
  simp [exec, execFqheadWrite, hf, field_zero]

/-! ### Where a register write goes (R5, R6) -/

/-- After a failed check every write is ignored (R400). -/
theorem registerWrite_failed {s : State} (o : Nat) (v : Word) (hf : s.fwstat ≠ 0) : exec (.registerWrite o v) s = .next s :=
  congrArg Host.Outcome.next (if_pos hf)

/-- A write within the window of a partition (R331). -/
theorem registerWrite_window {s : State} {p o : Nat} (v : Word) (hf : s.fwstat = 0) (hp : p < 128) (ho : o < 0x00100000) (h8 : o % 8 = 0) :
    exec (.registerWrite (0x01000000 + 0x00100000 * p + o) v) s = .next (s.writeWindow p o v) := by
  have hal : (0x01000000 + 0x00100000 * p + o) / 8 * 8 = 0x01000000 + 0x00100000 * p + o := by omega
  refine congrArg Host.Outcome.next ?_
  rw [if_neg (not_not.2 hf), hal, if_pos (by omega)]
  congr 1 <;> omega

theorem registerWrite_headframe {s : State} {n : Nat} (v : Word) (hf : s.fwstat = 0) (hn : n < 12) :
    exec (.registerWrite (0x00100000 + 8 * n) v) s = .next (s.writeHeadframe n v) := by
  have hal : (0x00100000 + 8 * n) / 8 * 8 = 0x00100000 + 8 * n := by omega
  refine congrArg Host.Outcome.next ?_
  rw [if_neg (not_not.2 hf), hal, if_neg (by omega), if_pos (by omega)]
  congr 1; omega

theorem registerWrite_windowReg {s : State} {n : Nat} (v : Word) (hf : s.fwstat = 0) (hn : n < 32) :
    exec (.registerWrite (0x00130200 + 8 * n) v) s = .next (s.writeWindowReg n v) := by
  have hal : (0x00130200 + 8 * n) / 8 * 8 = 0x00130200 + 8 * n := by omega
  refine congrArg Host.Outcome.next ?_
  rw [if_neg (not_not.2 hf), hal, if_neg (by omega), if_neg (by omega), if_neg (by omega), if_neg (by omega), if_neg (by omega),
    if_pos (by omega)]
  congr 1; omega

theorem registerWrite_route {s : State} {n : Nat} (v : Word) (hf : s.fwstat = 0) (hn : n < 2048) :
    exec (.registerWrite (0x00151000 + 8 * n) v) s = .next { s with routes := tset 0 s.routes n (field v 0 12) } := by
  have hal : (0x00151000 + 8 * n) / 8 * 8 = 0x00151000 + 8 * n := by omega
  have hix : (0x00151000 + 8 * n - 0x00151000) / 8 = n := by omega
  refine congrArg Host.Outcome.next ?_
  rw [if_neg (not_not.2 hf), hal, if_neg (by omega), if_neg (by omega), if_neg (by omega), if_neg (by omega), if_neg (by omega),
    if_neg (by omega), if_pos (by omega), hix]

theorem registerWrite_invVa {s : State} (v : Word) (hf : s.fwstat = 0) :
    exec (.registerWrite 0x00130008 v) s = .next { s with invVa := v.toNat % 2 ^ 57 } := by
  simp [exec, execRegisterWrite, hf, field_zero]

/-- The identity word is read-only (R341). -/
theorem registerWrite_identity (s : State) (v : Word) : exec (.registerWrite 0x00000000 v) s = .next s := by
  simp [exec, execRegisterWrite]

/-- WINCTL of a window of BAR 2 (R396). -/
theorem tfind_writeWindowReg_control (s : State) (n : Nat) (v : Word) :
    ∃ w, tfind (s.writeWindowReg (2 * n) v).windows n = some w ∧ w.part = field v 0 7 ∧ w.en = v.getLsbD 7 ∧ w.wen = v.getLsbD 8 := by
  simp [State.writeWindowReg, bitAt]

/-- WINVA of a window of BAR 2 (R396). -/
theorem tfind_writeWindowReg_base (s : State) (n : Nat) (v : Word) :
    ∃ w, tfind (s.writeWindowReg (2 * n + 1) v).windows n = some w ∧ w.base = field v 32 25 := by
  have h2 : (2 * n + 1) / 2 = n := by omega
  simp [State.writeWindowReg, h2]

/-! ### A partition's window (R330, R331, R370) -/

@[simp] theorem setPcb_setPcb (s : State) (p : Nat) (b c : Pcb) : (s.setPcb p b).setPcb p c = s.setPcb p c := by
  simp [State.setPcb]

theorem writeWindow_pcb (s : State) (p n : Nat) (v : Word) (hn : n < 12) : s.writeWindow p (8 * n) v = s.writePcb p n v := by
  have h8 : 8 * n / 8 = n := by omega
  rw [State.writeWindow, if_pos (by omega), h8]

/-- Words 0 to 7 of a PCB are the host's only while the partition is not formed (R330). -/
theorem writePcb_formed {s : State} {p n : Nat} (v : Word) (hb : (s.pcb p).formed = true) (hn : n < 8) : s.writePcb p n v = s := by
  by_cases h : n ≤ 3 <;> simp [State.writePcb, hb, h, show n ≤ 7 by omega]

theorem writePcb_unformed {s : State} {p n : Nat} (v : Word) (hb : (s.pcb p).formed = false) (hn : n ≤ 3) :
    s.writePcb p n v = s.setPcb p ((s.pcb p).setWord n v) := by
  simp [State.writePcb, hb, hn]

/-- Word 0 of a PCB holds the clusters 0 to 63. -/
theorem getLsbD_setWord_clusters (b : Pcb) (v : Word) (n : Nat) :
    (b.setWord 0 v).clusters.getLsbD n = if n < 64 then v.getLsbD n else b.clusters.getLsbD n := by
  have hones : (0xFFFFFFFFFFFFFFFF : BitVec 128) = BitVec.ofNat 128 (2 ^ 64 - 1) := rfl
  simp only [Pcb.setWord, hones, BitVec.getLsbD_or, BitVec.getLsbD_and, BitVec.getLsbD_not, BitVec.getLsbD_ofNat, BitVec.getLsbD_setWidth,
    Nat.testBit_two_pow_sub_one]
  by_cases hn : n < 64
  · simp [hn, show n < 128 by omega]
  · have hv : v.getLsbD n = false := BitVec.getLsbD_of_ge v n (by omega)
    by_cases hn' : n < 128
    · simp [hn, hn', hv]
    · simp [hn, hn', BitVec.getLsbD_of_ge b.clusters n (by omega)]

theorem writePcb_saveBase {s : State} {p : Nat} (v : Word) (hs : (s.pcb p).saving = false) (hr : (s.pcb p).restoring = false) :
    s.writePcb p 9 v = s.setPcb p { s.pcb p with saveBase := field v 6 51 * 64 } := by
  simp [State.writePcb, hs, hr]

theorem writePcb_saveDl {s : State} {p : Nat} {v : Word} (hv : v.toNat % 2 ^ 32 ≠ 0) :
    s.writePcb p 10 v = s.setPcb p { s.pcb p with saveDl := v.toNat % 2 ^ 32 } := by
  rw [← field_zero] at hv ⊢
  simp [State.writePcb, hv]

/-- The state once LCMD holds the fields written to it, before its command. -/
def State.lcmdFields (s : State) (p : Nat) (v : Word) : State := s.setPcb p { s.pcb p with lrec := field v 0 12, lword := field v 16 5 }

/-- LCMD with CMD 0 to 5: its fields, and then the command (R331, R340). -/
theorem writeLcmd_commands (s : State) (p : Nat) (v : Word) :
    let n := field v 0 12
    let s1 := s.lcmdFields p v
    (field v 12 3 = 0 → s.writeLcmd p v = s1) ∧
    (field v 12 3 = 1 → .next (s.writeLcmd p v) = exec (.build p n) s1) ∧
    (field v 12 3 = 2 → .next (s.writeLcmd p v) = exec (.patch p n (field v 16 5)) s1) ∧
    (field v 12 3 = 3 → .next (s.writeLcmd p v) = exec (.arm p n) s1) ∧
    (field v 12 3 = 4 → .next (s.writeLcmd p v) = exec (.query p n) s1) ∧
    (field v 12 3 = 5 → .next (s.writeLcmd p v) = exec (.free p n) s1) := by
  refine ⟨fun h => ?_, fun h => ?_, fun h => ?_, fun h => ?_, fun h => ?_, fun h => ?_⟩ <;> rw [State.writeLcmd, h]
  · rfl
  · rfl
  · have hw : field v 16 5 % 32 = field v 16 5 := Nat.mod_eq_of_lt (field_lt v 16 5)
    simp [exec, execPatch, State.lcmdFields, hw]
  · rfl
  · rfl
  · rfl

/-- LCMD with CMD 6 or 7 leaves error 3 where the partition is not sealed (log 95). -/
theorem writeLcmd_refused {s : State} {p : Nat} {v : Word} (hc : 5 < field v 12 3) (hs : (s.pcb p).isSealed = false) :
    s.writeLcmd p v = (s.lcmdFields p v).launchResult p (field v 0 12) 3 := by
  have hlt := field_lt v 12 3
  obtain h | h : field v 12 3 = 6 ∨ field v 12 3 = 7 := by omega
  all_goals simp [State.writeLcmd, h, hs, State.lcmdFields]

/-- What a launch command leaves in LCMD and LSTAT, and what it leaves alone. -/
theorem launchResult_lcmdFields (s : State) (p e : Nat) (v : Word) :
    let u := (s.lcmdFields p v).launchResult p (field v 0 12) e
    (u.pcb p).lerr = e ∧ (u.pcb p).lrec = field v 0 12 ∧ (u.pcb p).lword = field v 16 5 ∧
      (u.pcb p).lstate = (s.record (field v 0 12)).state.code ∧ u.clusters = s.clusters ∧ u.cores = s.cores := by
  simp [State.launchResult, State.lcmdFields]

/-! ### Where a read goes (R5, R6) -/

/-- A read outside sealed partitions answers what stands at the offset, and changes no core and no memory. -/
theorem sealedRead_reads {s : State} {o : Nat} {P : Word → Prop} (hP : P (s.barRead o)) (ho : s.sealedAt o = none) :
    ∃ u v, exec (.sealedRead o) s = .next u ∧ u.reply = .value v ∧ u.cores = s.cores ∧ SameMemory s u ∧ P v := by
  refine ⟨{ s.draw with reply := .value (s.barRead o) }, s.barRead o, ?_, rfl, rfl, ?_, hP⟩
  · simp [exec, execSealedRead, ho]
  · intro key l
    cases l <;> rfl

/-- After a failed check every offset but the identity word's and FWSTAT's reads zero (R400). -/
theorem barRead_failed {s : State} {o : Nat} (hf : s.fwstat ≠ 0) (h0 : 8 ≤ o) (h8 : o / 8 ≠ 8) : s.barRead o = 0 :=
  if_pos ⟨hf, by omega, by omega⟩

theorem barRead_identity (s : State) : s.barRead 0x00 = s.identity := by simp [State.barRead, State.deviceWord]

theorem barRead_fwstat (s : State) : s.barRead 0x40 = word s.fwstat := by simp [State.barRead, State.deviceWord]

theorem barRead_brstat {s : State} (hf : s.fwstat = 0) : s.barRead 0x48 = s.brstat := by simp [State.barRead, State.deviceWord, hf]

theorem deviceWord_reserved (s : State) {o : Nat} (ho : 0x80 ≤ o) : s.deviceWord o = 0 := by
  unfold State.deviceWord
  split
  case h_7 => rfl
  all_goals omega

/-- The reserved offsets from 0x80 to 0xF8. -/
theorem barRead_reserved {s : State} {n : Nat} (hf : s.fwstat = 0) (hn : n < 16) : s.barRead (0x80 + 8 * n) = 0 := by
  have hal : (0x80 + 8 * n) / 8 * 8 = 0x80 + 8 * n := by omega
  rw [State.barRead, hal, if_neg (by simp [hf]), if_pos (by omega), deviceWord_reserved s (by omega)]

theorem barRead_headframe {s : State} {n : Nat} (hf : s.fwstat = 0) (hn : n < 12) :
    s.barRead (0x00100000 + 8 * n) = s.headframeWord n := by
  have hal : (0x00100000 + 8 * n) / 8 * 8 = 0x00100000 + 8 * n := by omega
  rw [State.barRead, hal, if_neg (by simp [hf]), if_neg (by omega), if_pos (by omega)]
  congr 1; omega

/-- ENERGY n (R410). -/
theorem barRead_energy {s : State} {n : Nat} (hf : s.fwstat = 0) (hn : n < 4096) : s.barRead (0x00148000 + 8 * n) = tget 0 s.energy n := by
  have hal : (0x00148000 + 8 * n) / 8 * 8 = 0x00148000 + 8 * n := by omega
  rw [State.barRead, hal, if_neg (by simp [hf]), if_neg (by omega), if_neg (by omega), if_neg (by omega), if_neg (by omega),
    if_neg (by omega), if_pos (by omega), State.lampRoomWord, if_neg (by omega), if_neg (by omega), if_neg (by omega), if_neg (by omega),
    if_pos (by omega)]
  congr 1; omega

/-- The launch pool: word i of record n (R331). -/
theorem barRead_record {s : State} {n i : Nat} (hf : s.fwstat = 0) (hn : n < 4096) (hi : i < 32) :
    s.barRead (0x00400000 + 256 * n + 8 * i) = (s.record n).word i := by
  have hal : (0x00400000 + 256 * n + 8 * i) / 8 * 8 = 0x00400000 + 256 * n + 8 * i := by omega
  have hrec : (0x00400000 + 256 * n + 8 * i - 0x00400000) / 256 = n := by omega
  have hwd : (0x00400000 + 256 * n + 8 * i) / 8 % 32 = i := by omega
  rw [State.barRead, hal, if_neg (by simp [hf]), if_neg (by omega), if_neg (by omega), if_neg (by omega), if_neg (by omega),
    if_neg (by omega), if_neg (by omega), if_neg (by omega), if_pos (by omega), hrec, hwd]

/-- Word n of the PCB at the start of a partition's window (R330, R331). -/
theorem barRead_pcb {s : State} {p n : Nat} (hf : s.fwstat = 0) (hp : p < 128) (hn : n < 32) :
    s.barRead (0x01000000 + 8 * n + 0x00100000 * p) = (s.pcb p).readWord n := by
  have hal : (0x01000000 + 8 * n + 0x00100000 * p) / 8 * 8 = 0x01000000 + 8 * n + 0x00100000 * p := by omega
  have hpart : (0x01000000 + 8 * n + 0x00100000 * p - 0x01000000) / 0x00100000 = p := by omega
  have hoff : (0x01000000 + 8 * n + 0x00100000 * p) % 0x00100000 = 8 * n := by omega
  have hwd : 8 * n / 8 = n := by omega
  rw [State.barRead, hal, if_neg (by simp [hf]), if_neg (by omega), if_neg (by omega), if_neg (by omega), if_neg (by omega),
    if_neg (by omega), if_neg (by omega), if_neg (by omega), if_neg (by omega), if_pos (by omega), hpart, hoff, State.partitionWord,
    if_pos (by omega), hwd]

/-! ### The fields of the words read -/

theorem identity_fields (s : State) :
    field s.identity 0 8 = Config.stepping.toNat ∧ field s.identity 8 19 = s.devnum % 2 ^ 19 ∧ field s.identity 32 32 = 0x800 := by
  have hr : FieldsRise [(0, 8, Config.stepping.toNat), (8, 19, s.devnum), (32, 32, Config.cores)] := by simp [FieldsRise]
  refine ⟨?_, field_fieldWord (by simp) hr (by decide), field_fieldWord (x := Config.cores) (by simp) hr (by decide)⟩
  exact (field_fieldWord (by simp) hr (by decide)).trans (Nat.mod_eq_of_lt Config.stepping.isLt)

/-- Counting through m times n places by quotient and remainder. -/
theorem all_range_mul (m n : Nat) (f : Nat → Nat → Bool) :
    ((List.range (m * n)).all fun j => f (j / n) (j % n)) = (List.range m).all fun i => (List.range n).all fun p => f i p := by
  rw [Bool.eq_iff_iff]
  simp only [List.all_eq_true, List.mem_range]
  constructor
  · intro h i hi p hp
    have hn : 0 < n := by omega
    have hlt : n * i + p < m * n := calc
      n * i + p < n * (i + 1) := by rw [Nat.mul_add]; omega
      _ ≤ n * m := Nat.mul_le_mul_left n hi
      _ = m * n := Nat.mul_comm n m
    have := h (n * i + p) hlt
    rwa [Nat.mul_add_div hn, Nat.div_eq_of_lt hp, Nat.mul_add_mod, Nat.mod_eq_of_lt hp] at this
  · intro h j hj
    have hn : 0 < n := Nat.pos_of_ne_zero fun e => by simp [e] at hj
    exact h (j / n) (Nat.div_lt_of_lt_mul (by rwa [Nat.mul_comm])) (j % n) (Nat.mod_lt j hn)

/-- The 512 panels of a cluster, counted through, are the 32 panels of each of its 16 cores. -/
theorem calibrated_eq (s : State) (c : Nat) :
    s.calibrated c = (!(s.cluster c).lost && (List.range 512).all fun j =>
      ((s.core (16 * c + j / 32)).panel (j % 32)).calibrated || ((s.core (16 * c + j / 32)).panel (j % 32)).retired) :=
  congrArg ((!(s.cluster c).lost) && ·) (all_range_mul 16 32 fun i p =>
    ((s.core (16 * c + i)).panel p).calibrated || ((s.core (16 * c + i)).panel p).retired).symm

theorem brstat_fields (s : State) :
    field s.brstat 0 3 = s.stage % 8 ∧ field s.brstat 16 7 = s.calcl % 128 ∧
      field s.brstat 8 8 = ((List.range 128).filter s.calibrated).length := by
  have hr : FieldsRise [(0, 3, s.stage), (8, 8, ((List.range 128).filter s.calibrated).length), (16, 7, s.calcl)] := by simp [FieldsRise]
  have hcount : ((List.range 128).filter s.calibrated).length ≤ 128 := by simpa using List.length_filter_le s.calibrated (List.range 128)
  refine ⟨field_fieldWord (by simp) hr (by decide), field_fieldWord (by simp) hr (by decide), ?_⟩
  exact (field_fieldWord (by simp) hr (by decide)).trans (Nat.mod_eq_of_lt (by omega))

theorem RecState.code_lt (x : RecState) : x.code < 8 := by cases x <;> decide

/-- RECSTAT: the state, the points in flight and, of a RANGE record, those that have a crew (R362). -/
theorem statWord_fields (r : Record) :
    let flying := r.points.filter fun x => !x.ended
    field r.statWord 0 3 = r.state.code ∧ field r.statWord 11 9 = flying.length % 2 ^ 9 ∧
      field r.statWord 20 12 = if r.isRange then (flying.filter fun x => x.crew.isSome).length % 2 ^ 12 else 0 := by
  refine ⟨(field_fieldWord (by simp) (by simp [FieldsRise]) (by decide)).trans (Nat.mod_eq_of_lt r.state.code_lt),
    field_fieldWord (by simp) (by simp [FieldsRise]) (by decide),
    (field_fieldWord (x := if r.isRange then ((r.points.filter fun x => !x.ended).filter fun x => x.crew.isSome).length else 0) (by simp)
      (by simp [FieldsRise]) (by decide)).trans ?_⟩
  split <;> rfl

/-- FORMED, SEALED and TAG of a PCB (R330). -/
theorem readWord_control (b : Pcb) :
    (b.readWord 2).getLsbD 0 = b.formed ∧ (b.readWord 2).getLsbD 1 = b.isSealed ∧ field (b.readWord 2) 8 12 = b.tag % 2 ^ 12 :=
  ⟨getLsbD_fieldWord_bit (by simp) (by simp [FieldsRise]) (by decide), getLsbD_fieldWord_bit (by simp) (by simp [FieldsRise]) (by decide),
    field_fieldWord (by simp) (by simp [FieldsRise]) (by decide)⟩

/-- KEYSLOT, ERR and BUSY of a PCB (R330; BUSY as log 76 reads it). -/
theorem readWord_command (b : Pcb) :
    field (b.readWord 8) 0 8 = b.keySlot % 2 ^ 8 ∧ field (b.readWord 8) 16 8 = b.err % 2 ^ 8 ∧
      ((b.readWord 8).getLsbD 24 = true ↔ b.saving = true ∨ b.restoring = true) := by
  refine ⟨field_fieldWord (by simp) (by simp [FieldsRise]) (by decide), field_fieldWord (by simp) (by simp [FieldsRise]) (by decide), ?_⟩
  rw [show (b.readWord 8).getLsbD 24 = (b.saving || b.restoring) from
    getLsbD_fieldWord_bit (by simp) (by simp [FieldsRise]) (by decide), Bool.or_eq_true]

end Sys2Proof.Machine
end

section
/-! The registers of BAR 0, written and read by the host (R5, R6, R330, R331, R341, R362, R363, R395, R396, R400, R410, R412, R418). -/

open Sys2Proof Sys2Proof.Machine Sys2Proof.Claims

namespace Sys2Proof.Proofs

/-- The words of a PCB are written while its partition is not formed, and ignore a write once it is (R330). -/
theorem pcb_word_writes {s : State} (v : Word) (hf : s.fwstat = 0) {p : Nat} (hp : p < 128) :
    let b := s.pcb p
    let window (o : Nat) : Out := exec (.registerWrite (0x01000000 + 0x00100000 * p + o) v) s
    (b.formed = false → window 0x10 = .next (s.setPcb p { b with
        isSealed := v.getLsbD 1, shadow := field v 2 6, tag := field v 8 12, poolBase := field v 32 12, poolCnt := field v 44 13 }) ∧
      window 0x18 = .next (s.setPcb p { b with troot := v.toNat % 2 ^ 56 }) ∧
      ∃ u, window 0x00 = .next u ∧ ∀ n, (u.pcb p).clusters.getLsbD n = if n < 64 then v.getLsbD n else b.clusters.getLsbD n) ∧
    (b.formed = true → ∀ n, n < 8 → window (8 * n) = .next s) := by
  intro b window
  have hword (n : Nat) (hn : n < 12) : window (8 * n) = .next (s.writePcb p n v) := by
    rw [← writeWindow_pcb s p n v hn]
    exact registerWrite_window v hf hp (by omega) (by omega)
  refine ⟨fun hb => ⟨?_, ?_, ?_⟩, fun hb n hn => ?_⟩
  · rw [show 0x10 = 8 * 2 from rfl, hword 2 (by decide), writePcb_unformed v hb (by decide)]
    rfl
  · rw [show 0x18 = 8 * 3 from rfl, hword 3 (by decide), writePcb_unformed v hb (by decide), ← field_zero]
    rfl
  · refine ⟨_, hword 0 (by decide), fun n => ?_⟩
    rw [writePcb_unformed v hb (by decide), pcb_setPcb_self]
    exact getLsbD_setWord_clusters b v n
  · rw [hword n (by omega), writePcb_formed v hb hn]

/-- Each write of BAR 0 falls in one range of registers, and a partition's window in one of its own registers. -/
theorem claims_hostRegisters : Claims.HostRegisters := by
  intro s v hf
  refine ⟨devnumWrite_first v hf, fun hd => ?again, fun hr => ⟨fqcfgWrite_noReports v hf hr, ?head⟩, fun p r hr hroom => ?flush,
    registerWrite_headframe (n := 0) v hf (by decide), ?recsel, registerWrite_invVa v hf, registerWrite_identity s v,
    fun n hn => ?control, fun n hn => ?base, fun n hn => ⟨_, registerWrite_route v hf hn, tget_tset_self ..⟩, fun p hp => ?window⟩
  case again =>
    exact ⟨_, devnumWrite_again v hf hd, rfl, rfl, logHost_entry (by decide)⟩
  case head =>
    rw [fqheadWrite_eq v hf]
    exact congrArg _ (flushReports_nil (s := { s with fqHead := v.toNat % 2 ^ 32 }) hr _)
  case flush =>
    exact ⟨_, fqheadWrite_eq v hf, flushReports_one (s := { s with fqHead := v.toNat % 2 ^ 32 }) hr hroom⟩
  case recsel =>
    rw [← field_zero]
    exact registerWrite_headframe (n := 2) v hf (by decide)
  case control =>
    have hreg : 0x00130200 + 16 * n = 0x00130200 + 8 * (2 * n) := by omega
    rw [hreg, registerWrite_windowReg v hf (by omega)]
    exact ⟨_, rfl, tfind_writeWindowReg_control s n v⟩
  case base =>
    have hreg : 0x00130208 + 16 * n = 0x00130200 + 8 * (2 * n + 1) := by omega
    rw [hreg, registerWrite_windowReg v hf (by omega)]
    exact ⟨_, rfl, tfind_writeWindowReg_base s n v⟩
  case window =>
    intro b window
    have at' (o : Nat) (ho : o < 0x00100000) (h8 : o % 8 = 0) : window o = .next (s.writeWindow p o v) :=
      registerWrite_window v hf hp ho h8
    have lcmd : window 0x100 = .next (s.writeLcmd p v) := at' 0x100 (by decide) rfl
    obtain ⟨unformed, formed⟩ := pcb_word_writes v hf hp
    obtain ⟨cmd0, build, patch, arm, query, free⟩ := writeLcmd_commands s p v
    refine ⟨unformed, formed, fun hs hr => ?_, fun hv => ?_, at' 0x108 (by decide) rfl, at' 0x110 (by decide) rfl, ?_⟩
    · rw [at' 0x48 (by decide) rfl, writeWindow_pcb s p 9 v (by decide), writePcb_saveBase v hs hr]
    · rw [at' 0x50 (by decide) rfl, writeWindow_pcb s p 10 v (by decide), writePcb_saveDl hv]
    · refine ⟨fun h => lcmd.trans (congrArg _ (cmd0 h)), fun h => lcmd.trans (build h), fun h => lcmd.trans (patch h),
        fun h => lcmd.trans (arm h), fun h => lcmd.trans (query h), fun h => lcmd.trans (free h), fun h hs => ?_⟩
      refine ⟨_, lcmd, ?_⟩
      rw [writeLcmd_refused h hs]
      exact launchResult_lcmdFields s p 3 v

/-- Each read of BAR 0 falls in one range of registers, whose word gives the fields. -/
theorem claims_hostReads : Claims.HostReads := by
  intro s reads
  refine ⟨sealedRead_reads ?_, sealedRead_reads (barRead_fwstat s), fun hf => ⟨sealedRead_reads ?_, fun n hn => sealedRead_reads ?_,
    fun n i hn hi => sealedRead_reads ?_, fun p hp => ⟨sealedRead_reads ?_, sealedRead_reads ?_, sealedRead_reads ?_⟩,
    ⟨sealedRead_reads ?_, sealedRead_reads ?_⟩, fun n hn => sealedRead_reads (barRead_reserved hf hn)⟩,
    fun hf => ⟨fun o h0 h8 => sealedRead_reads (barRead_failed hf h0 h8), fun o v => registerWrite_failed o v hf⟩⟩
  · rw [barRead_identity]
    exact identity_fields s
  · rw [barRead_brstat hf]
    obtain ⟨hstage, hcalcl, hcount⟩ := brstat_fields s
    exact ⟨hstage, hcalcl, hcount.trans (by rw [funext (calibrated_eq s)])⟩
  · exact barRead_energy hf hn
  · exact barRead_record hf hn hi
  · exact barRead_pcb (n := 0) hf hp (by decide)
  · rw [show 0x01000010 = 0x01000000 + 8 * 2 from rfl, barRead_pcb hf hp (by decide)]
    exact readWord_control (s.pcb p)
  · rw [show 0x01000040 = 0x01000000 + 8 * 8 from rfl, barRead_pcb hf hp (by decide)]
    exact readWord_command (s.pcb p)
  · rw [show 0x00100018 = 0x00100000 + 8 * 3 from rfl, barRead_headframe hf (by decide)]
    exact statWord_fields (s.record s.recsel)
  · rw [show 0x00100020 = 0x00100000 + 8 * 4 from rfl, barRead_headframe hf (by decide)]
    exact fieldWord_single 48 (s.record s.recsel).nser

/-- Settles O60, from what a write and what a read of each range of registers does. -/
theorem hostRegisters : Obligations.HostRegisters := ⟨claims_hostRegisters, claims_hostReads⟩

end Sys2Proof.Proofs
end
